-- ==== Sys2Proof/Word.lean ====
section
/-! DEFINITION. The word types of the RAC (spec/00_scope.md R8, R9): every one an unsigned bit vector of a fixed width. -/

namespace Sys2Proof

/-- A register value or a bus byte: `DATA_W = 8` bits (R8). -/
abbrev Byte := BitVec 8

/-- A register address of the device: `ADDR_W = 6` bits, 0 to 63 (R8, R42). -/
abbrev Addr := BitVec 6

/-- A command word as the host presents it on `cmd_word` (R61). -/
abbrev CmdWord := BitVec 16

/-- The poll bound of `SELF_TEST`: `BOUND_W = 14` bits (R8, R66). -/
abbrev Bound := BitVec 14

end Sys2Proof
end

