-- ==== Sys2Proof/Config.lean ====
section
/-! DEFINITION. What an implementation fixes (spec/00_scope.md R8) and the free values the spec leaves open. Every constant
declared opaque here has no body: nothing in Lean can evaluate it or prove a value of it. -/

namespace Sys2Proof

/-- Which bit of a byte the peripheral shifts first (R50). -/
inductive BitOrder where
  | msbFirst | lsbFirst
  deriving DecidableEq, Repr, Inhabited

/-- `SPI_MODE`, the serial mode of the peripheral: "not a property of the RAC" (R8, R50, D30). The parts are those R8 and D30 name;
that polarity and phase are two-valued is PRESUMED (log 23). -/
structure SpiMode where
  /-- Serial clock polarity. -/
  clockPolarity : Bool
  /-- Serial clock phase. -/
  clockPhase : Bool
  /-- Bit order on the serial line. -/
  bitOrder : BitOrder
  /-- Serial clock rate in hertz (D30). -/
  clockRate : Nat
  deriving DecidableEq, Repr, Inhabited

/-- The named parameters of R8, GOLDEN (R32) among them; the fixed ones are the widths of Word.lean and literals of the rules. `T_CS` and `T_SETTLE` are at least 1 by
R8; each is held less 1, which is the value the spec loads into `DLY` (`T_CS - 1`, `T_SETTLE - 1`), so no smaller value can be
written down. DESIGN CHOICE (log 4). -/
structure Build where
  /-- `T_CS - 1`. -/
  tCsLess1 : Nat
  /-- `T_SETTLE - 1`. -/
  tSettleLess1 : Nat
  /-- `CLK_HZ`, the frequency of `clk` in hertz. -/
  clkHz : Nat
  /-- `GOLDEN[0..63]`, the golden vector (R32). -/
  golden : Vector Byte 64
  /-- `SPI_MODE`; no edge reads it (R50). -/
  spiMode : SpiMode
  deriving DecidableEq, Repr

/-- `T_CS`, the settle delay around each chip-select toggle, in cycles (R8). -/
def Build.tCs (b : Build) : Nat := b.tCsLess1 + 1

/-- `T_SETTLE`, the soft-reset settle delay, in cycles (R8). -/
def Build.tSettle (b : Build) : Nat := b.tSettleLess1 + 1

/-- The constraint R8 puts on the parameters: `CLK_HZ` is positive and `T_SETTLE >= ceil(0.050 * CLK_HZ)`, which for whole
numbers says that twenty times `T_SETTLE` is at least `CLK_HZ`. -/
abbrev Build.legal (b : Build) : Prop := 0 < b.clkHz ∧ b.clkHz ≤ 20 * b.tSettle

/-- `W_DLY`, the width of `DLY` (R25). -/
def Build.wDly (b : Build) : Nat := max 1 (Nat.clog 2 (max b.tCs b.tSettle))

namespace Config

/-- `T_CS - 1`: named parameter (R8, D3). -/
opaque tCsLess1 : Nat

/-- `CLK_HZ - 1`: named parameter, OPEN (R8, D2). -/
opaque clkHzLess1 : Nat

/-- How far `T_SETTLE` lies above its lower bound: named parameter, OPEN (R8, D4). -/
opaque tSettleSlack : Nat

/-- `GOLDEN[0..63]`: named parameter, content OPEN (R8, R32, D17). -/
opaque golden : Vector Byte 64

/-- `SPI_MODE`: named parameter, OPEN (R8, D30). -/
opaque spiMode : SpiMode

/-- The machine's build parameters: any values that meet R8's constraints, made from the open constants above. The lower bound
of `T_SETTLE` is `ceil(CLK_HZ / 20)`. -/
def build : Build where
  tCsLess1 := tCsLess1
  clkHz := clkHzLess1 + 1
  tSettleLess1 := (clkHzLess1 + 20) / 20 - 1 + tSettleSlack
  golden := golden
  spiMode := spiMode

/-! Free input port values (log 2): what the outside world drives at the n-th edge for which the state lists nothing. No law
holds of them (spec/20_memory.md R47; spec/93_implementation_defined.md I3, I4, I5). -/

/-- Free value of `rst` (R144). -/
opaque freeRst : Nat → Bool
/-- Free value of `cmd_valid` (I5). -/
opaque freeCmdValid : Nat → Bool
/-- Free value of `cmd_word` (R161). -/
opaque freeCmdWord : Nat → CmdWord
/-- Free value of `rsp_ready` (I5). -/
opaque freeRspReady : Nat → Bool
/-- Free value of `x_done` (I4). -/
opaque freeXDone : Nat → Bool
/-- Free value of `x_rx` (I3, R47). -/
opaque freeXRx : Nat → Byte

end Config

end Sys2Proof
end

