-- ==== Sys2Proof/Syntax.lean ====
section
/-! DEFINITION. The instructions: one constructor per row of spec/opcode_table.json. -/

namespace Sys2Proof

/-- The RAC's instructions (R3, R63): the four command words a host presents, and the two header bytes a frame begins with.
Bits the spec calls ignored are kept where a register latches them (`CMD <- cmd_word`, R99; log 12). -/
inductive Instr where
  /-- `WRITE_REG a, d` (R91): write byte `d` to device register `a`. -/
  | writeReg (a : Addr) (d : Byte)
  /-- `READ_REG a` (R92): read device register `a`; `x` is the ignored low byte of the word (R65). -/
  | readReg (a : Addr) (x : Byte)
  /-- `SELF_TEST bound` (R102): run the chip's self-test with at most `bound` polls, 0 for no bound (R66). -/
  | selfTest (bound : Bound)
  /-- `ILLEGAL word` (R128, R75): a reserved command word, written as its whole value. -/
  | illegal (word : CmdWord)
  /-- `SPI_WR_HDR a` (R86, R68): the header byte of a write frame to register `a`. -/
  | spiWrHdr (a : Addr)
  /-- `SPI_RD_HDR a` (R89, R68): the header byte of a read frame from register `a`. -/
  | spiRdHdr (a : Addr)
  deriving DecidableEq, Repr

end Sys2Proof
end

