-- ==== Sys2Proof/WellFormed.lean ====
section
/-! DEFINITION. The check an instruction must pass to have an encoding. Every other operand is in its range by its type; the
assembler's unbounded operands are checked in Machine/Assembler.lean. -/

namespace Sys2Proof

/-- `ILLEGAL <word>` spells a command only for "any word with op 0b11" (R75, R67). -/
def Instr.wellFormed : Instr → Bool
  | .writeReg _ _ => true
  | .readReg _ _ => true
  | .selfTest _ => true
  | .illegal word => word.getLsbD 15 && word.getLsbD 14
  | .spiWrHdr _ => true
  | .spiRdHdr _ => true

end Sys2Proof
end

