-- ==== Sys2Proof/Decode.lean ====
section
/-! DEFINITION. The encodings of spec/30_encoding.md: the fields of a command word, the header byte, the decoder (total, every
rejection by name) and the encoder. -/

namespace Sys2Proof

/-- A word of one of the two encodings: a command word on the host's port (R61) or a header byte on the bus (R68). The port a
word stands on says which it is, so the two never compete. DESIGN CHOICE (log 18). -/
inductive CodeWord where
  | command (w : CmdWord)
  | header (b : Byte)
  deriving DecidableEq, Repr

/-- Why a word is no instruction. -/
inductive Reject where
  /-- A byte with bit 0 set is no header: "no header with bit 0 set is ever sent" (R70). -/
  | headerBitZeroSet
  deriving DecidableEq, Repr

/-! ### Fields of the command word (R62) -/

/-- `op`, bits 15:14. -/
def opField (w : CmdWord) : BitVec 2 := w.extractLsb' 14 2

/-- `addr`, bits 13:8. -/
def addrField (w : CmdWord) : Addr := w.extractLsb' 8 6

/-- `data`, bits 7:0. -/
def dataField (w : CmdWord) : Byte := w.extractLsb' 0 8

/-- `bound`, bits 13:0. -/
def boundField (w : CmdWord) : Bound := w.extractLsb' 0 14

/-! ### The header byte (R68) -/

/-- `hdr(rw, a) = {rw, a[5:0], 0b0}`; `rw` is true for a read. -/
def hdr (rw : Bool) (a : Addr) : Byte := BitVec.ofBool rw ++ a ++ 0#1

/-- The address field of a header byte, bits 6:1 (R70). -/
def hdrAddr (b : Byte) : Addr := b.extractLsb' 1 6

/-! ### The decoder -/

/-- The opcode map of R63: `op` alone selects; all 65536 words are covered. -/
def decodeCommand (w : CmdWord) : Instr :=
  if opField w = 0b00#2 then .writeReg (addrField w) (dataField w)
  else if opField w = 0b01#2 then .readReg (addrField w) (dataField w)
  else if opField w = 0b10#2 then .selfTest (boundField w)
  else .illegal w

/-- The header patterns `0aaaaaa0` and `1aaaaaa0` of R70. -/
def decodeHeader (b : Byte) : Except Reject Instr :=
  if b.getLsbD 0 then .error .headerBitZeroSet
  else if b.getLsbD 7 then .ok (.spiRdHdr (hdrAddr b))
  else .ok (.spiWrHdr (hdrAddr b))

/-- The decoder. -/
def decode : CodeWord → Except Reject Instr
  | .command w => .ok (decodeCommand w)
  | .header b => decodeHeader b

/-! ### The encoder (R62, R75: `{op, addr, data}` or `{op, bound}`) -/

/-- The word of `WRITE_REG a, d`: `00aaaaaadddddddd`. -/
def writeRegWord (a : Addr) (d : Byte) : CmdWord := 0b00#2 ++ a ++ d

/-- The word of `READ_REG a` with low byte `x`: `01aaaaaaxxxxxxxx`. -/
def readRegWord (a : Addr) (x : Byte) : CmdWord := 0b01#2 ++ a ++ x

/-- The word of `SELF_TEST b`: `10bbbbbbbbbbbbbb`. -/
def selfTestWord (b : Bound) : CmdWord := 0b10#2 ++ b

/-- The word of an instruction. -/
def encode : Instr → CodeWord
  | .writeReg a d => .command (writeRegWord a d)
  | .readReg a x => .command (readRegWord a x)
  | .selfTest b => .command (selfTestWord b)
  | .illegal word => .command word
  | .spiWrHdr a => .header (hdr false a)
  | .spiRdHdr a => .header (hdr true a)

/-- The word the opcode table's numbering gives: a 16-bit row is a command word, an 8-bit row a header byte. -/
def tableWord (nbits w : Nat) : Option CodeWord :=
  match nbits with
  | 16 => some (.command (BitVec.ofNat 16 w))
  | 8 => some (.header (BitVec.ofNat 8 w))
  | _ => none

/-- The instruction the decoder reads from a word numbered as spec/opcode_table.json numbers it. -/
def decodeTableWord (nbits w : Nat) : Option Instr :=
  match tableWord nbits w with
  | some c => (decode c).toOption
  | none => none

end Sys2Proof
end

