-- ==== Sys2Proof/Machine/State.lean ====
section
/-! DEFINITION. The RAC's state (spec/10_state.md R20 to R32), its input ports, the events of its bus trace, the reasons a step
can stop, and the state after reset (R41). -/

namespace Sys2Proof.Machine

/-- The sequencer states of R23. The codes are in Machine/StateCodes.lean. -/
inductive SeqState where
  | initRst | initWait | idle | host
  | stRst | stWait | stFlush | stLoad | stMem | stArm | stSeed | stCalc | stPoll | stDrain | stDisarm | stVerify
  | resp
  /-- Code `17 + k`: "unreachable from reset; if ever held, the next edge" recovers (R23). -/
  | unused (k : Fin 15)
  deriving DecidableEq, Repr

/-- The transaction engine's sub-states of R24. -/
inductive BteState where
  | pre | setup | hdr | gap | data | hold | post
  /-- Code 7: unused and unreachable; recovers at the next edge (R24). -/
  | unused
  deriving DecidableEq, Repr

/-- The outcome codes of R126. -/
inductive Status where
  | ok | mismatch | timeout | illegal
  deriving DecidableEq, Repr

/-- The events of the bus trace (R12). -/
inductive BusEvent where
  /-- `cs_n` falls. -/
  | cs0
  /-- `cs_n` rises. -/
  | cs1
  /-- One completed exchange: the byte sent and the byte received. -/
  | x (tx rx : Byte)
  deriving DecidableEq, Repr

/-- The values on the input ports at one edge (R16 to R19). -/
structure Pins where
  rst : Bool
  cmdValid : Bool
  cmdWord : CmdWord
  rspReady : Bool
  xDone : Bool
  xRx : Byte
  deriving DecidableEq, Repr

/-- All input ports low. -/
def Pins.low : Pins := ⟨false, false, 0, false, false, 0⟩

/-- The RAC. The fields `cmd` to `result` are the registers of R21 to R31, `build` holds GOLDEN (R32) and the other constant
parameters of R8; the last four are the model's own (log 2, 5, 6). -/
structure State where
  /-- Build parameters and GOLDEN; no step writes them (R8, R32). -/
  build : Build
  /-- `CMD` (R21). -/
  cmd : CmdWord
  /-- `SEQ` (R22, R23). -/
  seq : SeqState
  /-- `BTE` (R24). -/
  bte : BteState
  /-- `DLY` (R25). -/
  dly : Nat
  /-- `CNT` (R26). -/
  cnt : BitVec 6
  /-- `POLLS` (R27). -/
  polls : BitVec 14
  /-- `TO` (R28). -/
  toFlag : Bool
  /-- `RDATA` (R29). -/
  rdata : Byte
  /-- `RSP_STATUS` (R30). -/
  rspStatus : Status
  /-- `RSP_DATA` (R30). -/
  rspData : Byte
  /-- `RESULT[0..63]` (R31). -/
  result : Vector Byte 64
  /-- The input port values sampled at the latest edge. -/
  pins : Pins
  /-- The port values the outside world will drive at the coming edges, in order (log 2). -/
  inputs : List Pins
  /-- How many free port values have been drawn (log 2). -/
  drawn : Nat
  /-- The bus trace so far, newest event first (R12; log 6). -/
  trace : List BusEvent
  deriving DecidableEq, Repr

/-- No command traps or halts the RAC (R125, R131, R136), so there is no fault. -/
inductive Fault where
  deriving DecidableEq, Repr

/-- Why a step gives no next state. -/
inductive Refusal where
  /-- Raised by an arm of `exec` for an instruction without a meaning; no arm does. Safe: nothing can be proved of it. -/
  | notModelled (mnemonic : String)
  /-- Raised by `step` if the byte the RAC sends as a header were no header. It never is, since every header sent is
  `hdr rw a` (R70); that is a statement of its own. Safe: the machine stops where the spec gives no run. -/
  | undecodable (why : Reject)
  deriving DecidableEq, Repr

/-- The machine right after the first reset edge (R41). RESULT is "unspecified; not reset": zero here, DESIGN CHOICE (log 3). -/
def State.reset : State where
  build := Config.build
  cmd := 0x0000
  seq := .initRst
  bte := .pre
  dly := Config.build.tCsLess1
  cnt := 0
  polls := 0
  toFlag := false
  rdata := 0x00
  rspStatus := .ok
  rspData := 0x00
  result := Vector.replicate 64 0x00
  pins := Pins.low
  inputs := []
  drawn := 0
  trace := []

end Sys2Proof.Machine
end

