-- ==== Sys2Proof/Machine/Operands.lean ====
section
/-! DEFINITION. Operands: the device's named registers and command codes (spec/20_memory.md R43, R44) and the transaction
selector (spec/41_self_test.md R101). -/

namespace Sys2Proof.Machine

/-! ### The device's named registers, logical addresses (R43; the single shift of conflict C1 is in `hdr`) -/

/-- Command. -/
def regCommand : Addr := 0x01
/-- FIFOData. -/
def regFifoData : Addr := 0x09
/-- FIFOLevel. -/
def regFifoLevel : Addr := 0x0A
/-- AutoTest. -/
def regAutoTest : Addr := 0x36
/-- Version; no transaction of the RAC's own names it (R123). -/
def regVersion : Addr := 0x37

/-! ### The values written to them (R44) -/

/-- Command code SoftReset. -/
def codeSoftReset : Byte := 0x0F
/-- Command code Mem. -/
def codeMem : Byte := 0x01
/-- Command code CalcCRC. -/
def codeCalcCrc : Byte := 0x03
/-- AutoTest value EnableSelfTest. -/
def enableSelfTest : Byte := 0x09
/-- AutoTest value that disables self-test mode. -/
def disableSelfTest : Byte := 0x00
/-- FIFOLevel's flush bit, written as a whole byte (D13). -/
def flushFifo : Byte := 0x80

/-- One transaction on the bus (R86, R89). A read has no write byte: R101 leaves it unused (log 8). -/
inductive Txn where
  /-- `RegWrite(a, d)`. -/
  | regWrite (a : Addr) (d : Byte)
  /-- `RegRead(a)`. -/
  | regRead (a : Addr)
  deriving DecidableEq, Repr

/-- The mode bit `rw`: true for a read. -/
def Txn.rw : Txn → Bool
  | .regWrite _ _ => false
  | .regRead _ => true

/-- The register address. -/
def Txn.addr : Txn → Addr
  | .regWrite a _ => a
  | .regRead a => a

/-- The first byte of the frame: the header (R71, R72). -/
def Txn.headerByte (t : Txn) : Byte := hdr t.rw t.addr

/-- The second byte sent: the data byte of a write, the dummy byte 0x00 of a read (R71, R72, R83). -/
def Txn.secondByte : Txn → Byte
  | .regWrite _ d => d
  | .regRead _ => 0x00

/-- The transaction states, `TXN_STATES` of R23. -/
def SeqState.isTxn : SeqState → Bool
  | .initRst | .host | .stRst | .stFlush | .stLoad | .stMem | .stArm | .stSeed | .stCalc | .stPoll | .stDrain
  | .stDisarm => true
  | .initWait | .idle | .stWait | .stVerify | .resp | .unused _ => false

/-- The transaction a host command asks for: `rw = CMD[14]`, `a = CMD[13:8]`, `wd = CMD[7:0]` (R101, `S_HOST`). -/
def hostTxn (cmd : CmdWord) : Txn :=
  if cmd.getLsbD 14 then .regRead (addrField cmd) else .regWrite (addrField cmd) (dataField cmd)

/-- The transaction selector `txn(SEQ, CMD)` (R101). Outside `TXN_STATES` it is `(0, 0x00, 0x00)` and never used. -/
def txn (q : SeqState) (cmd : CmdWord) : Txn :=
  match q with
  | .initRst => .regWrite regCommand codeSoftReset
  | .host => hostTxn cmd
  | .stRst => .regWrite regCommand codeSoftReset
  | .stFlush => .regWrite regFifoLevel flushFifo
  | .stLoad => .regWrite regFifoData 0x00
  | .stMem => .regWrite regCommand codeMem
  | .stArm => .regWrite regAutoTest enableSelfTest
  | .stSeed => .regWrite regFifoData 0x00
  | .stCalc => .regWrite regCommand codeCalcCrc
  | .stPoll => .regRead regFifoLevel
  | .stDrain => .regRead regFifoData
  | .stDisarm => .regWrite regAutoTest disableSelfTest
  | .initWait | .idle | .stWait | .stVerify | .resp | .unused _ => .regWrite 0x00 0x00

/-- The transaction of the current state. -/
def State.txn (s : State) : Txn := Machine.txn s.seq s.cmd

/-- `BOUND = CMD[13:0]` (R66, R124). -/
def State.bound (s : State) : Bound := boundField s.cmd

end Sys2Proof.Machine
end

