-- ==== Sys2Proof/Machine/Flags.lean ====
section
/-! DEFINITION. The conditions the sequencer decides by: the poll level test (spec/41_self_test.md R110), the saturating poll
count (R112), the bound that sets TO (R111), the comparison (R116). TO is the RAC's only flag (spec/10_state.md R28). -/

namespace Sys2Proof.Machine

/-- `v >= 64`, `v` an unsigned 8-bit number, the whole byte (R110, D14). -/
def levelReached (v : Byte) : Bool := decide (64 ≤ v.toNat)

/-- `sat14(n) = min(n, 16383)` (R112). -/
def sat14 (n : Nat) : BitVec 14 := BitVec.ofNat 14 (min n 16383)

/-- The new value of POLLS after one more poll: `sat14(POLLS + 1)` (R112). -/
def State.pollsNext (s : State) : BitVec 14 := sat14 (s.polls.toNat + 1)

/-- The bound check of R111 on the new poll count: `BOUND != 0 and p == BOUND`. -/
def State.boundHit (s : State) : Bool := decide (s.bound ≠ 0 ∧ s.pollsNext = s.bound)

/-- `pass = for all i in 0..63: RESULT[i] == GOLDEN[i]` (R116). -/
def State.passes (s : State) : Bool := decide (∀ i : Fin 64, s.result[i] = s.build.golden[i])

end Sys2Proof.Machine
end

