-- ==== Sys2Proof/Machine/StateCodes.lean ====
section
/-! DEFINITION. The binary encodings of SEQ (spec/10_state.md R23), BTE (R24) and RSP_STATUS (spec/60_exceptions.md R126), both
ways. -/

namespace Sys2Proof.Machine

/-- The 5-bit code of a sequencer state (R23). -/
def SeqState.code : SeqState → BitVec 5
  | .initRst => 0
  | .initWait => 1
  | .idle => 2
  | .host => 3
  | .stRst => 4
  | .stWait => 5
  | .stFlush => 6
  | .stLoad => 7
  | .stMem => 8
  | .stArm => 9
  | .stSeed => 10
  | .stCalc => 11
  | .stPoll => 12
  | .stDrain => 13
  | .stDisarm => 14
  | .stVerify => 15
  | .resp => 16
  | .unused k => BitVec.ofNat 5 (17 + k.val)

/-- The sequencer state of a 5-bit code (R23). -/
def SeqState.ofCode (c : BitVec 5) : SeqState :=
  match c.toNat with
  | 0 => .initRst
  | 1 => .initWait
  | 2 => .idle
  | 3 => .host
  | 4 => .stRst
  | 5 => .stWait
  | 6 => .stFlush
  | 7 => .stLoad
  | 8 => .stMem
  | 9 => .stArm
  | 10 => .stSeed
  | 11 => .stCalc
  | 12 => .stPoll
  | 13 => .stDrain
  | 14 => .stDisarm
  | 15 => .stVerify
  | 16 => .resp
  | n => .unused (Fin.ofNat 15 (n - 17))

/-- The 3-bit code of an engine sub-state (R24). -/
def BteState.code : BteState → BitVec 3
  | .pre => 0
  | .setup => 1
  | .hdr => 2
  | .gap => 3
  | .data => 4
  | .hold => 5
  | .post => 6
  | .unused => 7

/-- The engine sub-state of a 3-bit code (R24). -/
def BteState.ofCode (c : BitVec 3) : BteState :=
  match c.toNat with
  | 0 => .pre
  | 1 => .setup
  | 2 => .hdr
  | 3 => .gap
  | 4 => .data
  | 5 => .hold
  | 6 => .post
  | _ => .unused

/-- The 2-bit status code (R126). -/
def Status.code : Status → BitVec 2
  | .ok => 0b00
  | .mismatch => 0b01
  | .timeout => 0b10
  | .illegal => 0b11

end Sys2Proof.Machine
end

