-- ==== Sys2Proof/Machine/Ports.lean ====
section
/-! DEFINITION. The output ports (spec/10_state.md R34 to R39): functions of the registers alone, no input in them. A 1-bit
port is a Bool, true for 1. -/

namespace Sys2Proof.Machine

/-- The engine sub-states in which chip-select is asserted (R34). -/
def BteState.inWindow : BteState → Bool
  | .setup | .hdr | .gap | .data | .hold => true
  | .pre | .post | .unused => false

/-- The engine sub-states that request an exchange (R35). -/
def BteState.exchanging : BteState → Bool
  | .hdr | .data => true
  | .pre | .setup | .gap | .hold | .post | .unused => false

/-- `cs_n` (R34): false, that is 0, exactly while the window is open. -/
def State.csN (s : State) : Bool := !(s.seq.isTxn && s.bte.inWindow)

/-- `x_req` (R35). -/
def State.xReq (s : State) : Bool := s.seq.isTxn && s.bte.exchanging

/-- `x_tx` (R36). -/
def State.xTx (s : State) : Byte :=
  if s.xReq then
    match s.bte with
    | .hdr => s.txn.headerByte
    | .pre | .setup | .gap | .data | .hold | .post | .unused => s.txn.secondByte
  else 0x00

/-- `cmd_ready` (R37). -/
def State.cmdReady (s : State) : Bool :=
  match s.seq with
  | .idle => true
  | .initRst | .initWait | .host | .stRst | .stWait | .stFlush | .stLoad | .stMem | .stArm | .stSeed | .stCalc | .stPoll
  | .stDrain | .stDisarm | .stVerify | .resp | .unused _ => false

/-- `rsp_valid` (R38). -/
def State.rspValid (s : State) : Bool :=
  match s.seq with
  | .resp => true
  | .initRst | .initWait | .idle | .host | .stRst | .stWait | .stFlush | .stLoad | .stMem | .stArm | .stSeed | .stCalc
  | .stPoll | .stDrain | .stDisarm | .stVerify | .unused _ => false

/-- `rsp_status` (R38, R126). -/
def State.rspStatusPort (s : State) : BitVec 2 := s.rspStatus.code

/-- `rsp_data` (R38). -/
def State.rspDataPort (s : State) : Byte := s.rspData

end Sys2Proof.Machine
end

