-- ==== Sys2Proof/Machine/Ops.lean ====
section
/-! DEFINITION. The operations the machine's edges are made of. `respond` stands where another machine takes an exception, and
`takeResponse` where it returns from one (spec/60_exceptions.md R127, R136, R137). -/

namespace Sys2Proof.Machine

/-- The free port values number `n` (log 2). -/
def freePins (n : Nat) : Pins where
  rst := Config.freeRst n
  cmdValid := Config.freeCmdValid n
  cmdWord := Config.freeCmdWord n
  rspReady := Config.freeRspReady n
  xDone := Config.freeXDone n
  xRx := Config.freeXRx n

/-- Sample the input ports at an edge (R10): the next listed values, or a free draw where none is listed (R47; log 2). -/
def State.sample (s : State) : State :=
  match s.inputs with
  | p :: ps => { s with pins := p, inputs := ps }
  | [] => { s with pins := freePins s.drawn, drawn := s.drawn + 1 }

/-- Add an event to the bus trace (R12). -/
def State.record (s : State) (e : BusEvent) : State := { s with trace := e :: s.trace }

/-- `DLY <- DLY - 1` (R25). -/
def State.countDown (s : State) : State := { s with dly := s.dly - 1 }

/-- `enter(S)`: `SEQ <- S; BTE <- B_PRE; DLY <- T_CS - 1` (R124). -/
def State.enter (s : State) (q : SeqState) : State := { s with seq := q, bte := .pre, dly := s.build.tCsLess1 }

/-- Begin a soft-reset settle: `SEQ <- S; DLY <- T_SETTLE - 1` (R124). -/
def State.settle (s : State) (q : SeqState) : State := { s with seq := q, dly := s.build.tSettleLess1 }

/-- `BTE` code 7 recovers at the next edge, whatever `SEQ` is: `BTE <- B_PRE; DLY <- T_CS - 1` (R24). `SEQ` is the sequencer's
to change at that edge, as at any other (log 21). -/
def State.recoverBte (s : State) : State := if s.bte = .unused then { s with bte := .pre, dly := s.build.tCsLess1 } else s

/-- `CMD <- cmd_word` at the acceptance edge (R99, R21). -/
def State.accept (s : State) (w : CmdWord) : State := { s with cmd := w }

/-- `respond(s, d)`: `RSP_STATUS <- s; RSP_DATA <- d; SEQ <- S_RESP` (R127). -/
def State.respond (s : State) (st : Status) (d : Byte) : State :=
  { s with rspStatus := st, rspData := d, seq := .resp }

/-- `S_RESP`: the response is taken when `rsp_ready` is 1, otherwise it is held (R117, R137). -/
def State.takeResponse (s : State) : State := if s.pins.rspReady then { s with seq := .idle } else s

/-- A reset edge (R144): every register takes its value of R41; RESULT keeps what it held and GOLDEN is constant. An open
window closes at once, with no hold or post delay, and an exchange in progress is abandoned (R146; log 7). -/
def State.resetEdge (s : State) : State :=
  { s with
    cmd := 0x0000
    seq := .initRst
    bte := .pre
    dly := s.build.tCsLess1
    cnt := 0
    polls := 0
    toFlag := false
    rdata := 0x00
    rspStatus := .ok
    rspData := 0x00
    trace := if s.csN then s.trace else .cs1 :: s.trace }

end Sys2Proof.Machine
end

