-- ==== Sys2Proof/Machine/Sequencer.lean ====
section
/-! DEFINITION. The sequencer's actions at a completion edge (spec/41_self_test.md R124). -/

namespace Sys2Proof.Machine

/-- `S_ST_LOAD` at completion: 25 dummy bytes, counted 0 to 24 (R105). -/
def State.loadDone (s : State) : State :=
  if s.cnt = 24 then s.enter .stMem else { s with cnt := s.cnt + 1 }.enter .stLoad

/-- `S_ST_POLL` at completion: count the poll, then drain, time out or poll again (R110, R111, R112). The level test comes
before the bound check. -/
def State.pollDone (s : State) : State :=
  if levelReached s.rdata then { s with polls := s.pollsNext, cnt := 0 }.enter .stDrain
  else if s.boundHit then { s with polls := s.pollsNext, toFlag := true }.enter .stDisarm
  else { s with polls := s.pollsNext }.enter .stPoll

/-- `RESULT[CNT] <- RDATA` (R113). -/
def State.storeResult (s : State) : State := { s with result := s.result.set s.cnt.toNat s.rdata s.cnt.isLt }

/-- `S_ST_DRAIN` at completion: 64 result bytes, in order (R113). -/
def State.drainDone (s : State) : State :=
  if s.cnt = 63 then s.storeResult.enter .stDisarm else { s.storeResult with cnt := s.cnt + 1 }.enter .stDrain

/-- `S_ST_DISARM` at completion: TIMEOUT, or on to the comparison (R114). -/
def State.disarmDone (s : State) : State :=
  if s.toFlag then s.respond .timeout 0x00 else { s with seq := .stVerify }

/-- `S_HOST` at completion: `respond(OK, RDATA)` for a read, `respond(OK, 0x00)` for a write (R100). -/
def State.hostDone (s : State) : State := s.respond .ok (if s.cmd.getLsbD 14 then s.rdata else 0x00)

/-- `S_ST_VERIFY`, one cycle (R116). -/
def State.verify (s : State) : State := s.respond (if s.passes then .ok else .mismatch) 0x00

/-- The sequencer's action at the completion edge of the current transaction (R124). A state outside `TXN_STATES` has no
transaction, so no completion edge. -/
def State.complete (s : State) : State :=
  match s.seq with
  | .initRst => s.settle .initWait
  | .host => s.hostDone
  | .stRst => s.settle .stWait
  | .stFlush => { s with cnt := 0 }.enter .stLoad
  | .stLoad => s.loadDone
  | .stMem => s.enter .stArm
  | .stArm => s.enter .stSeed
  | .stSeed => s.enter .stCalc
  | .stCalc => s.enter .stPoll
  | .stPoll => s.pollDone
  | .stDrain => s.drainDone
  | .stDisarm => s.disarmDone
  | .initWait | .idle | .stWait | .stVerify | .resp | .unused _ => s

end Sys2Proof.Machine
end

