-- ==== Sys2Proof/Machine/Engine.lean ====
section
/-! DEFINITION. The transaction engine (spec/40_bus_transactions.md R77 to R85) and every edge of the machine at which no word
is fetched: no command accepted, no header exchange completed (spec/41_self_test.md R124). -/

namespace Sys2Proof.Machine

/-- The header exchange completes (R81): `BTE <- B_GAP`, the received byte discarded; the event `X(tx, x_rx)` (R80). -/
def State.endHeader (s : State) (tx : Byte) : State := { s with bte := .gap }.record (.x tx s.pins.xRx)

/-- The data exchange completes (R83): `RDATA <- x_rx` if it is a read, `BTE <- B_HOLD`, `DLY <- T_CS - 1`; the event
`X(x_tx, x_rx)` (R80). -/
def State.endData (s : State) : State :=
  { s with
    rdata := if s.txn.rw then s.pins.xRx else s.rdata
    bte := .hold
    dly := s.build.tCsLess1 }.record (.x s.txn.secondByte s.pins.xRx)

/-- An edge in a transaction state (R77). The completion of the header exchange is the meaning of the header byte sent
(`SPI_WR_HDR`, `SPI_RD_HDR`), so `B_HDR` here is the edge at which the exchange goes on. -/
def State.txnEdge (s : State) : State :=
  match s.bte with
  | .pre => if s.dly = 0 then { s with bte := .setup, dly := s.build.tCsLess1 }.record .cs0 else s.countDown
  | .setup => if s.dly = 0 then { s with bte := .hdr } else s.countDown
  | .hdr => s
  | .gap => { s with bte := .data }
  | .data => if s.pins.xDone then s.endData else s
  | .hold => if s.dly = 0 then { s with bte := .post, dly := s.build.tCsLess1 }.record .cs1 else s.countDown
  | .post => if s.dly = 0 then s.complete else s.countDown
  | .unused => s.recoverBte

/-- An edge with `rst == 0` at which no word is fetched (R124). Outside `TXN_STATES`, where no engine runs, `BTE` code 7 recovers
beside the sequencer's action (R24; log 21). -/
def State.edge (s : State) : State :=
  match s.seq with
  | .initRst => s.txnEdge
  | .initWait => (if s.dly = 0 then { s with seq := .idle } else s.countDown).recoverBte
  | .idle => s.recoverBte
  | .host => s.txnEdge
  | .stRst => s.txnEdge
  | .stWait => (if s.dly = 0 then s.enter .stFlush else s.countDown).recoverBte
  | .stFlush => s.txnEdge
  | .stLoad => s.txnEdge
  | .stMem => s.txnEdge
  | .stArm => s.txnEdge
  | .stSeed => s.txnEdge
  | .stCalc => s.txnEdge
  | .stPoll => s.txnEdge
  | .stDrain => s.txnEdge
  | .stDisarm => s.txnEdge
  | .stVerify => s.verify.recoverBte
  | .resp => s.takeResponse.recoverBte
  | .unused _ => s.enter .initRst

/-- The word fetched at this edge, ports sampled: the command accepted (`cmd_valid` and `cmd_ready`, R17, R99), or the header
byte whose exchange completes (`x_done` in `B_HDR`, R81). -/
def State.fetch (s : State) : Option CodeWord :=
  if s.cmdReady && s.pins.cmdValid then some (.command s.pins.cmdWord)
  else if s.seq.isTxn && (s.bte == .hdr) && s.pins.xDone then some (.header s.xTx)
  else none

end Sys2Proof.Machine
end

