-- ==== Sys2Proof/Machine/HostCommands.lean ====
section
/-! DEFINITION. The meanings of the command words: what the RAC does at the edge at which it accepts one (spec/41_self_test.md
R99, spec/60_exceptions.md R128). The transactions and the response that follow are the edges of the state entered
(Machine/Engine.lean, Machine/Sequencer.lean; log 1). -/

namespace Sys2Proof.Machine

/-- What an instruction answers. -/
abbrev Answer := Host.Outcome State Fault Refusal

/-- `WRITE_REG a, d` (R91): `CMD <- cmd_word`, then the one write transaction in `S_HOST` (R99). -/
def execWriteReg (a : Addr) (d : Byte) (s : State) : Answer := .next ((s.accept (writeRegWord a d)).enter .host)

/-- `READ_REG a` (R92): `CMD <- cmd_word`, ignored low byte included, then the one read transaction in `S_HOST` (R99). -/
def execReadReg (a : Addr) (x : Byte) (s : State) : Answer := .next ((s.accept (readRegWord a x)).enter .host)

/-- `SELF_TEST b` (R102): `CMD <- cmd_word; POLLS <- 0; TO <- 0`, then step 1 in `S_ST_RST` (R99). -/
def execSelfTest (b : Bound) (s : State) : Answer :=
  .next ({ s.accept (selfTestWord b) with polls := 0, toFlag := false }.enter .stRst)

/-- A reserved word (R128): `CMD <- cmd_word` and `respond(ILLEGAL, 0x00)`; nothing on the bus. -/
def execIllegal (w : CmdWord) (s : State) : Answer := .next ((s.accept w).respond .illegal 0x00)

end Sys2Proof.Machine
end

