-- ==== Sys2Proof/Machine/FrameHeaders.lean ====
section
/-! DEFINITION. The meanings of the header bytes: what the RAC does at the edge at which the exchange of one completes
(spec/40_bus_transactions.md R81, R86, R89). -/

namespace Sys2Proof.Machine

/-- `SPI_WR_HDR a`, the first byte of a write frame (R71, R86): sent, the byte received with it discarded, then the gap. -/
def execSpiWrHdr (a : Addr) (s : State) : Answer := .next (s.endHeader (hdr false a))

/-- `SPI_RD_HDR a`, the first byte of a read frame (R72, R89): sent, the byte received with it discarded, then the gap. -/
def execSpiRdHdr (a : Addr) (s : State) : Answer := .next (s.endHeader (hdr true a))

end Sys2Proof.Machine
end

