-- ==== Sys2Proof/Machine/Dispatch.lean ====
section
/-! DEFINITION. One arm per instruction. -/

namespace Sys2Proof.Machine

def exec (i : Instr) (s : State) : Host.Outcome State Fault Refusal :=
  match i with
  | .writeReg a d => Sys2Proof.Machine.execWriteReg a d s
  | .readReg a x => Sys2Proof.Machine.execReadReg a x s
  | .selfTest b => Sys2Proof.Machine.execSelfTest b s
  | .illegal w => Sys2Proof.Machine.execIllegal w s
  | .spiWrHdr a => Sys2Proof.Machine.execSpiWrHdr a s
  | .spiRdHdr a => Sys2Proof.Machine.execSpiRdHdr a s

end Sys2Proof.Machine
end

