-- ==== Sys2Proof/Machine/Placement.lean ====
section
/-! DEFINITION. Placing a word where the next step fetches it (log 11): a command word on the command port of an idle RAC, a
header byte in the header exchange of a host transaction that the peripheral completes at the next edge. -/

namespace Sys2Proof.Machine

/-- The port values that offer command word `w` (R17). -/
def offerPins (w : CmdWord) : Pins := { Pins.low with cmdValid := true, cmdWord := w }

/-- The port values that complete an exchange, byte `rx` received (R80). -/
def donePins (rx : Byte) : Pins := { Pins.low with xDone := true, xRx := rx }

/-- An idle RAC to which the host offers `w` (R99). -/
def placeCommand (s : State) (w : CmdWord) : State := { s with seq := .idle, inputs := offerPins w :: s.inputs }

/-- The command word whose `S_HOST` transaction sends header byte `b` (R101). -/
def commandFor (b : Byte) : CmdWord :=
  if b.getLsbD 7 then readRegWord (hdrAddr b) 0x00 else writeRegWord (hdrAddr b) 0x00

/-- A RAC in the header exchange of a host command whose header byte is `b` (R81). -/
def placeHeader (s : State) (b : Byte) : State :=
  { s with cmd := commandFor b, seq := .host, bte := .hdr, inputs := donePins 0x00 :: s.inputs }

/-- Place the word that spec/opcode_table.json numbers `w` in a row of `nbits` bits. -/
def placeWord (s : State) (nbits w : Nat) : State :=
  match tableWord nbits w with
  | some (.command c) => placeCommand s c
  | some (.header b) => placeHeader s b
  | none => s

end Sys2Proof.Machine
end

