-- ==== Sys2Proof/Machine/Step.lean ====
section
/-! DEFINITION. One step: one rising edge of `clk` (spec/00_scope.md R10). -/

namespace Sys2Proof.Machine

/-- The edge, ports sampled: `rst` overrides everything (R134, R144); else a word is fetched and runs, on a state whose `BTE`
code 7, if held, has recovered (R24; log 21); else the machine's own
edge (R124). -/
def stepSampled (s : State) : Host.Outcome State Fault Refusal :=
  if s.pins.rst then .next s.resetEdge
  else
    match s.fetch with
    | some w =>
      match decode w with
      | .ok i => exec i s.recoverBte
      | .error why => .refused (.undecodable why)
    | none => .next s.edge

/-- One step of the RAC. -/
def step (s : State) : Host.Outcome State Fault Refusal := stepSampled s.sample

/-- `s` with the instruction of the opcode table's word `w` placed so that the next step fetches it (log 11). -/
def State.withFetchWord (s : State) (nbits w : Nat) : State := placeWord s nbits w

end Sys2Proof.Machine
end

