-- ==== Sys2Proof/Machine/Assembler.lean ====
section
/-! DEFINITION. The assembler notation of spec/30_encoding.md R75 and its pseudo-instructions R76, as syntax trees: a notation
for command words, outside the machine (log 20). -/

namespace Sys2Proof.Machine

/-- The register names an `<addr>` may be (R75). -/
inductive RegName where
  | command | fifoData | fifoLevel | autoTest | version
  deriving DecidableEq, Repr

/-- The logical address of a register name (R43). -/
def RegName.addr : RegName → Addr
  | .command => regCommand
  | .fifoData => regFifoData
  | .fifoLevel => regFifoLevel
  | .autoTest => regAutoTest
  | .version => regVersion

/-- An `<addr>` operand: a number or a name (R75). -/
inductive AddrOperand where
  | number (n : Nat)
  | name (r : RegName)
  deriving DecidableEq, Repr

/-- A command as written (R75, R76). -/
inductive AsmCommand where
  | writeReg (addr : AddrOperand) (data : Nat)
  | readReg (addr : AddrOperand)
  | selfTest (bound : Option Nat)
  | illegal (word : Nat)
  | softReset
  | flushFifo
  | readVersion
  | readLevel
  deriving DecidableEq, Repr

/-- A number as a field of `w` bits: "an operand outside its range spells no command" (R75). -/
def fieldOf (w n : Nat) : Option (BitVec w) := if n < 2 ^ w then some (BitVec.ofNat w n) else none

/-- The address an operand names. -/
def AddrOperand.value : AddrOperand → Option Addr
  | .number n => fieldOf 6 n
  | .name r => some r.addr

/-- The core command a pseudo-instruction stands for (R76). -/
def AsmCommand.expand : AsmCommand → AsmCommand
  | .softReset => .writeReg (.name .command) codeSoftReset.toNat
  | .flushFifo => .writeReg (.name .fifoLevel) Machine.flushFifo.toNat
  | .readVersion => .readReg (.name .version)
  | .readLevel => .readReg (.name .fifoLevel)
  | .writeReg a d => .writeReg a d
  | .readReg a => .readReg a
  | .selfTest b => .selfTest b
  | .illegal w => .illegal w

/-- The instruction a core command spells, if it spells one: `READ_REG` with data field 0, `SELF_TEST` with bound 0 when
omitted, `ILLEGAL` for any word with op 0b11 (R75). -/
def AsmCommand.core : AsmCommand → Option Instr
  | .writeReg a d =>
    match a.value, fieldOf 8 d with
    | some a, some d => some (.writeReg a d)
    | _, _ => none
  | .readReg a => a.value.map fun a => .readReg a 0x00
  | .selfTest none => some (.selfTest 0)
  | .selfTest (some n) => (fieldOf 14 n).map .selfTest
  | .illegal n =>
    match fieldOf 16 n with
    | some w => if (Instr.illegal w).wellFormed then some (.illegal w) else none
    | none => none
  | .softReset | .flushFifo | .readVersion | .readLevel => none

/-- The instruction a command spells. -/
def AsmCommand.assemble (c : AsmCommand) : Option Instr := c.expand.core

end Sys2Proof.Machine
end

