-- ==== Sys2Proof/Machine/Transactions.lean ====
section
/-! DEFINITION. Transactions as the bus sees them (spec/30_encoding.md R71 to R73, spec/40_bus_transactions.md R86, R89) and the
exact transaction sequence of one SELF_TEST (spec/41_self_test.md R118). -/

namespace Sys2Proof.Machine

/-- The bus trace of one transaction, in order, with the two bytes received (R86, R89). -/
def Txn.events (t : Txn) (r : Byte × Byte) : List BusEvent :=
  [.cs0, .x t.headerByte r.1, .x t.secondByte r.2, .cs1]

/-- The transaction a captured window was, from the two bytes sent: bit 7 of the first tells write from read (R73). -/
def Txn.ofFrame (first second : Byte) : Option Txn :=
  match decodeHeader first with
  | .ok (.spiWrHdr a) => some (.regWrite a second)
  | .ok (.spiRdHdr a) => some (.regRead a)
  | .ok (.writeReg _ _) | .ok (.readReg _ _) | .ok (.selfTest _) | .ok (.illegal _) => none
  | .error _ => none

/-- The bus trace of a list of transactions with the bytes received in each. -/
def eventsOf (ts : List Txn) (rs : List (Byte × Byte)) : List BusEvent :=
  (List.zipWith Txn.events ts rs).flatten

/-- Transactions 2 to 31 of R118: flush, 25 dummy writes, Mem, arm, seed, CalcCRC. -/
def setupTxns : List Txn :=
  [[Txn.regWrite 0x0A 0x80], List.replicate 25 (Txn.regWrite 0x09 0x00),
    [.regWrite 0x01 0x01, .regWrite 0x36 0x09, .regWrite 0x09 0x00, .regWrite 0x01 0x03]].flatten

/-- The transactions of a SELF_TEST that does not time out, with `k` polls: `96 + k` of them (R118). -/
def comparePathTxns (k : Nat) : List Txn :=
  [[Txn.regWrite 0x01 0x0F], setupTxns, List.replicate k (Txn.regRead 0x0A), List.replicate 64 (Txn.regRead 0x09),
    [Txn.regWrite 0x36 0x00]].flatten

/-- The transactions of a SELF_TEST that times out after `k` polls: the drain is absent, `32 + k` of them (R118). -/
def timeoutPathTxns (k : Nat) : List Txn :=
  [[Txn.regWrite 0x01 0x0F], setupTxns, List.replicate k (Txn.regRead 0x0A), [Txn.regWrite 0x36 0x00]].flatten

end Sys2Proof.Machine
end

