-- ==== Sys2Proof/Safety.lean ====
section
/-! DEFINITION. The terms claims are stated in: runs, what a well-behaved outside world drives, a bracketed bus trace, and the
invariants of the sequencer. -/

namespace Sys2Proof.Machine

/-- `n` steps from `s`, every one answering a next state, end in `u`. (Laws/Step.lean: the same as the host's
`Host.Core.run`.) -/
def Runs : Nat → State → State → Prop
  | 0, s, u => u = s
  | n + 1, s, u => ∃ t, step s = .next t ∧ Runs n t u

/-! ### The outside world -/

/-- `n` edges without reset; every other port value is free. -/
def Waits (n : Nat) (ps : List Pins) : Prop := ps.length = n ∧ ∀ p ∈ ps, p.rst = false

/-- The port values of one transaction's edges, from its first `B_PRE` cycle to its completion edge, in which the peripheral
returns `r.1` in the header exchange and `r.2` in the data exchange, taking any number of cycles for each, and no reset comes.
Every other port value is free (R157: the length is `4 * T_CS + h + d + 1`). -/
def ServesTxn (b : Build) (r : Byte × Byte) (ps : List Pins) : Prop :=
  ∃ (lead hdrWait : List Pins) (hdrDone gap : Pins) (dataWait : List Pins) (dataDone : Pins) (tail : List Pins),
    ps = [lead, hdrWait, [hdrDone, gap], dataWait, [dataDone], tail].flatten ∧
    lead.length = 2 * b.tCs ∧ tail.length = 2 * b.tCs ∧
    (∀ p ∈ hdrWait, p.xDone = false) ∧ hdrDone.xDone = true ∧ hdrDone.xRx = r.1 ∧
    (∀ p ∈ dataWait, p.xDone = false) ∧ dataDone.xDone = true ∧ dataDone.xRx = r.2 ∧
    (∀ p ∈ ps, p.rst = false)

/-- The port values of consecutive transactions, back to back. -/
def ServesAll (b : Build) : List (Byte × Byte) → List Pins → Prop
  | [], ps => ps = []
  | r :: rs, ps => ∃ p q, ps = p ++ q ∧ ServesTxn b r p ∧ ServesAll b rs q

/-! Runs without end, and the duties of the outside world. `f n` are the port values at edge `n`, `σ n` the state before it. The
duties are premises of claims, never part of the RAC (R163: "a duty, not a liberty"; log 22). -/

/-- Port values `f` drive the RAC through the states `σ`. -/
def Drives (f : Nat → Pins) (σ : Nat → State) : Prop := ∀ n, step { σ n with inputs := [f n] } = .next (σ (n + 1))

/-- The host's duty on the response port, a fairness assumption (R163): it "eventually asserts `rsp_ready` while
`rsp_valid == 1`", unless the response is gone first, which reset alone can bring about (R154). -/
def HostTakesResponses (f : Nat → Pins) (σ : Nat → State) : Prop :=
  ∀ n, (σ n).rspValid = true → ∃ m ≥ n, (σ m).rspValid = false ∨ (f m).rspReady = true

/-- The peripheral's duty (R80, item 5): "for each exchange it eventually asserts `x_done`", unless reset ends the exchange
first. -/
def PeripheralCompletes (f : Nat → Pins) (σ : Nat → State) : Prop :=
  ∀ n, (σ n).xReq = true → ∃ m ≥ n, (σ m).xReq = false ∨ (f m).xDone = true

/-! ### The bus trace -/

/-- Where a bus trace ends: no window open, or a window open with so many exchanges completed in it. -/
inductive Window where
  | closed
  | opened (exchanges : Nat)
  deriving DecidableEq, Repr

/-- Read a bus trace, newest event first: `none` if it breaks the bracketing of R93, that is if a window opens inside a window,
closes outside one, or an exchange lies outside a window, is a third one of its window, or begins a window with a byte whose
bit 0 is set (R70). -/
def windowOf : List BusEvent → Option Window
  | [] => some .closed
  | .cs0 :: es =>
    match windowOf es with
    | some .closed => some (.opened 0)
    | _ => none
  | .cs1 :: es =>
    match windowOf es with
    | some (.opened _) => some .closed
    | _ => none
  | .x tx _ :: es =>
    match windowOf es with
    | some (.opened 0) => if tx.getLsbD 0 then none else some (.opened 1)
    | some (.opened 1) => some (.opened 2)
    | _ => none

/-- The exchanges a window holds by the time the engine is in a sub-state (R78 to R85). -/
def BteState.exchanged : BteState → Nat
  | .pre | .setup | .hdr => 0
  | .gap | .data => 1
  | .hold | .post | .unused => 2

/-- The trace is bracketed, and its last window is open exactly while `cs_n` is 0, with the exchanges the engine has made. -/
def Bracketed (s : State) : Prop :=
  windowOf s.trace = some (if s.csN then .closed else .opened s.bte.exchanged)

/-! ### The sequencer -/

/-- The states of a SELF_TEST in progress (R23). -/
def SeqState.inSelfTest : SeqState → Bool
  | .stRst | .stWait | .stFlush | .stLoad | .stMem | .stArm | .stSeed | .stCalc | .stPoll | .stDrain | .stDisarm
  | .stVerify => true
  | .initRst | .initWait | .idle | .host | .resp | .unused _ => false

/-- The states of a SELF_TEST before its first poll (R102). -/
def SeqState.beforePolls : SeqState → Bool
  | .stRst | .stWait | .stFlush | .stLoad | .stMem | .stArm | .stSeed | .stCalc => true
  | .stPoll | .stDrain | .stDisarm | .stVerify | .initRst | .initWait | .idle | .host | .resp | .unused _ => false

/-- What DLY may hold in each state: at most the delay loaded in a delay state, 0 between the delays of a window (R25). -/
def DlyInRange (s : State) : Prop :=
  if s.seq.isTxn then
    match s.bte with
    | .pre | .setup | .hold | .post => s.dly ≤ s.build.tCsLess1
    | .hdr | .gap | .data => s.dly = 0
    | .unused => True
  else
    match s.seq with
    | .initWait | .stWait => s.dly ≤ s.build.tSettleLess1
    | _ => True

/-- What holds of the registers in every state a run from reset reaches. -/
structure SequencerInv (s : State) : Prop where
  /-- `SEQ` holds one of the codes 0 to 16 (R23). -/
  seqUsed : ∀ k, s.seq ≠ .unused k
  /-- `BTE` holds one of the codes 0 to 6 (R24). -/
  bteUsed : s.bte ≠ .unused
  /-- `DLY` counts within the delay loaded (R25). -/
  dlyInRange : DlyInRange s
  /-- `S_HOST` runs only register commands (R99). -/
  hostCommand : s.seq = .host → s.cmd.getLsbD 15 = false
  /-- The self-test states run only SELF_TEST (R99). -/
  selfTestCommand : s.seq.inSelfTest = true → opField s.cmd = 0b10
  /-- `CNT` counts dummy writes 0 to 24 (R26). -/
  loadCount : s.seq = .stLoad → s.cnt.toNat ≤ 24
  /-- No poll is counted before the first one (R27). -/
  pollsCleared : s.seq.beforePolls = true → s.polls = 0
  /-- A poll is made only while the bound, if there is one, is not used up (R111). -/
  pollsBelowBound : s.seq = .stPoll → s.bound ≠ 0 → s.polls.toNat < s.bound.toNat
  /-- "With BOUND != 0, POLLS never exceeds BOUND" (R112). -/
  pollsWithinBound : s.seq.inSelfTest = true → s.bound ≠ 0 → s.polls.toNat ≤ s.bound.toNat
  /-- `TO` is set only when the bound was reached, and then only the disarm follows (R28, R111, R114). -/
  timeoutOnlyInDisarm : s.seq.inSelfTest = true → s.toFlag = true → s.seq = .stDisarm ∧ s.bound ≠ 0 ∧ s.polls = s.bound

end Sys2Proof.Machine
end

