-- ==== Sys2Proof/Certificates/Slice0/Obligations.lean ====
section
/-! DEFINITION. The statements for the provers. `s.sample` is the state with the input ports sampled at the next edge: it
differs from `s` only in `pins`, `inputs` and `drawn`. No statement reads a free value of Config. -/

open Sys2Proof Sys2Proof.Machine

/-! ### Encodings (spec/30_encoding.md) -/

/-- Words written out from R62, R68 and R70 (the worked example W1, the vectors T2, T6, T10, T14, T17 and T21, and a header with
bit 0 set) decode to the instructions they stand for. That READ_REG keeps its ignored byte as an operand is the model's reading
(log 12). -/
def Obligations.SpecWordsDecode : Prop :=
  decode (.command 0x0A80) = .ok (.writeReg 0x0A 0x80) ∧
  decode (.command 0x3FFF) = .ok (.writeReg 0x3F 0xFF) ∧
  decode (.command 0x77FF) = .ok (.readReg 0x37 0xFF) ∧
  decode (.command 0x83E8) = .ok (.selfTest 1000) ∧
  decode (.command 0xC0A5) = .ok (.illegal 0xC0A5) ∧
  decode (.header 0x6C) = .ok (.spiWrHdr 0x36) ∧
  decode (.header 0x92) = .ok (.spiRdHdr 0x09) ∧
  decode (.header 0x01) = .error .headerBitZeroSet

/-- Decoding an encoded well-formed instruction gives it back, at every operand value. -/
def Obligations.EncodedInstructionDecodesToItself : Prop :=
  ∀ i : Instr, i.wellFormed = true → decode (encode i) = .ok i

/-- A word that decodes is the encoding of what it decodes to, so no two words stand for one `Instr`. That is so because the model
keeps READ_REG's ignored byte in `Instr` (the model's choice, log 12): by R65 the 256 words of one READ_REG behave alike. -/
def Obligations.DecodedWordEncodesBack : Prop :=
  ∀ (w : CodeWord) (i : Instr), decode w = .ok i → encode i = w ∧ i.wellFormed = true

/-- R62, R63: bits 15:14 alone select the command, its operands are the fields of R62, and the four rows cover every word. That
READ_REG keeps as an operand the low byte R65 calls ignored, where R62 gives `data` to WRITE_REG alone, is the model's reading
(log 12). -/
def Obligations.OpFieldAloneSelectsTheCommand : Prop :=
  ∀ w : CmdWord,
    (w &&& 0xC000 = 0x0000 → ∃ a d, decode (.command w) = .ok (.writeReg a d) ∧
      a.toNat = w.toNat / 256 % 64 ∧ d.toNat = w.toNat % 256) ∧
    (w &&& 0xC000 = 0x4000 → ∃ a x, decode (.command w) = .ok (.readReg a x) ∧
      a.toNat = w.toNat / 256 % 64 ∧ x.toNat = w.toNat % 256) ∧
    (w &&& 0xC000 = 0x8000 → ∃ b, decode (.command w) = .ok (.selfTest b) ∧ b.toNat = w.toNat % 16384) ∧
    (w &&& 0xC000 = 0xC000 → decode (.command w) = .ok (.illegal w)) ∧
    (w &&& 0xC000 = 0x0000 ∨ w &&& 0xC000 = 0x4000 ∨ w &&& 0xC000 = 0x8000 ∨ w &&& 0xC000 = 0xC000)

/-- R68, R70: the header byte is the mode bit, the address shifted left once, and a zero. -/
def Obligations.HeaderIsModeBitAddressZero : Prop :=
  ∀ a : Addr,
    hdr false a = a.setWidth 8 <<< 1 ∧
    hdr true a = 0x80 ||| (a.setWidth 8 <<< 1) ∧
    ∀ rw : Bool, (hdr rw a).getLsbD 0 = false ∧ (hdr rw a).getLsbD 7 = rw ∧ (hdr rw a).extractLsb' 1 6 = a

/-- R69: for every 6-bit address the shifted address is even and below 128, so every mask of the source leaves it as it is, and
the source's four masked header formulas equal the mask-free header. -/
def Obligations.MaskedHeaderFormulasAgree : Prop :=
  ∀ a : Addr,
    let v : Byte := a.setWidth 8 <<< 1
    v.getLsbD 0 = false ∧ v.toNat < 128 ∧ v &&& 0x7F = v ∧ v &&& 0xFE = v ∧ v &&& 0x7E = v ∧
    v &&& 0x7F = hdr false a ∧ v &&& 0xFE = hdr false a ∧
    0x80 ||| (v &&& 0x7F) = hdr true a ∧ 0x80 ||| (v &&& 0x7E) = hdr true a

/-- A captured frame gives its transaction back, bit 7 of its first byte telling write from read; a first byte with bit 0 set
belongs to no frame (R70 to R73). -/
def Obligations.FrameBytesTellTheTransaction : Prop :=
  (∀ t : Txn, Txn.ofFrame t.headerByte t.secondByte = some t) ∧
  (∀ first second : Byte, first.getLsbD 0 = true → Txn.ofFrame first second = none) ∧
  (∀ (first second : Byte) (t : Txn), Txn.ofFrame first second = some t → t.rw = first.getLsbD 7)

/-- R75, R76: the examples and the pseudo-instructions, as words. -/
def Obligations.AssemblerSpellingsGiveTheirWords : Prop :=
  (AsmCommand.writeReg (.name .fifoLevel) 0x80).assemble.map encode = some (.command 0x0A80) ∧
  (AsmCommand.readReg (.name .version)).assemble.map encode = some (.command 0x7700) ∧
  (AsmCommand.selfTest none).assemble.map encode = some (.command 0x8000) ∧
  (AsmCommand.selfTest (some 1000)).assemble.map encode = some (.command 0x83E8) ∧
  (AsmCommand.illegal 0xC0A5).assemble.map encode = some (.command 0xC0A5) ∧
  AsmCommand.softReset.assemble.map encode = some (.command 0x010F) ∧
  AsmCommand.flushFifo.assemble.map encode = some (.command 0x0A80) ∧
  AsmCommand.readVersion.assemble.map encode = some (.command 0x7700) ∧
  AsmCommand.readLevel.assemble.map encode = some (.command 0x4A00)

/-- R75: numeric operands in range spell the word `{op, addr, data}` or `{op, bound}`; "an operand outside its range spells no
command". -/
def Obligations.AssemblerChecksOperandRanges : Prop :=
  ∀ n d : Nat,
    (AsmCommand.writeReg (.number n) d).assemble.map encode =
      (if n < 64 ∧ d < 256 then some (.command (BitVec.ofNat 16 (n * 256 + d))) else none) ∧
    (AsmCommand.readReg (.number n)).assemble.map encode =
      (if n < 64 then some (.command (BitVec.ofNat 16 (0x4000 + n * 256))) else none) ∧
    (AsmCommand.selfTest (some n)).assemble.map encode =
      (if n < 16384 then some (.command (BitVec.ofNat 16 (0x8000 + n))) else none) ∧
    (AsmCommand.illegal n).assemble.map encode =
      (if 0xC000 ≤ n ∧ n < 0x10000 then some (.command (BitVec.ofNat 16 n)) else none)

/-- R23, R24, R126: the codes of the named states and of the four outcomes; every code stands for one state, read back from
it. -/
def Obligations.StateCodesReadBack : Prop :=
  [SeqState.initRst, .initWait, .idle, .host, .stRst, .stWait, .stFlush, .stLoad, .stMem, .stArm, .stSeed, .stCalc, .stPoll,
    .stDrain, .stDisarm, .stVerify, .resp].map SeqState.code = (List.range 17).map (BitVec.ofNat 5) ∧
  [BteState.pre, .setup, .hdr, .gap, .data, .hold, .post].map BteState.code = (List.range 7).map (BitVec.ofNat 3) ∧
  (∀ q : SeqState, SeqState.ofCode q.code = q) ∧ (∀ c : BitVec 5, (SeqState.ofCode c).code = c) ∧
  (∀ b : BteState, BteState.ofCode b.code = b) ∧ (∀ c : BitVec 3, (BteState.ofCode c).code = c) ∧
  Status.ok.code = 0b00 ∧ Status.mismatch.code = 0b01 ∧ Status.timeout.code = 0b10 ∧ Status.illegal.code = 0b11

/-! ### One step -/

/-- When the word on the port decodes to an instruction, the step is `exec` of it, ports sampled; `BTE` code 7, if held, has
recovered first (R24; log 21), and in a state that holds another code nothing is done around `exec`. -/
def Obligations.StepRunsTheFetchedInstruction : Prop :=
  ∀ (s : State) (w : CodeWord) (i : Instr),
    s.sample.pins.rst = false → s.sample.fetch = some w → decode w = .ok i →
    step s = exec i s.sample.recoverBte ∧ (s.bte ≠ .unused → step s = exec i s.sample)

/-- A command word is fetched at the command handshake (R17), a header byte where the header exchange completes (R81), nothing
anywhere else. -/
def Obligations.WordsAreFetchedAtTheHandshakes : Prop :=
  ∀ (s : State) (w : CodeWord),
    s.fetch = some w ↔
      (s.cmdReady = true ∧ s.pins.cmdValid = true ∧ w = .command s.pins.cmdWord) ∨
      (s.xReq = true ∧ s.bte = .hdr ∧ s.pins.xDone = true ∧ w = .header s.xTx)

/-- No command traps or halts the RAC and no hang is a final state (R125, R154): every step of every state answers a next
state. -/
def Obligations.EveryStepAnswersNext : Prop :=
  ∀ s : State, ∃ t, step s = .next t

/-- R34 to R38: each output port as a function of the registers. -/
def Obligations.OutputPortsFollowTheRegisters : Prop :=
  ∀ s : State,
    (s.csN = false ↔ s.seq.isTxn = true ∧ (s.bte = .setup ∨ s.bte = .hdr ∨ s.bte = .gap ∨ s.bte = .data ∨ s.bte = .hold)) ∧
    (s.xReq = true ↔ s.seq.isTxn = true ∧ (s.bte = .hdr ∨ s.bte = .data)) ∧
    s.xTx = (if s.xReq = true ∧ s.bte = .hdr then hdr s.txn.rw s.txn.addr
      else if s.xReq = true ∧ s.bte = .data then (if s.txn.rw then 0x00 else s.txn.secondByte) else 0x00) ∧
    (s.cmdReady = true ↔ s.seq = .idle) ∧
    (s.rspValid = true ↔ s.seq = .resp) ∧
    s.rspStatusPort = s.rspStatus.code ∧ s.rspDataPort = s.rspData

/-- The rows of R101's transaction selector. A read has no write byte here, where R101 gives one (`CMD[7:0]` in `S_HOST`, unused in
the self-test's reads): the model's choice (log 8). -/
def Obligations.TransactionSelectorTable : Prop :=
  ∀ c : CmdWord,
    txn .initRst c = .regWrite 0x01 0x0F ∧
    txn .host c = (if c.getLsbD 14 then .regRead (c.extractLsb' 8 6) else .regWrite (c.extractLsb' 8 6) (c.extractLsb' 0 8)) ∧
    txn .stRst c = .regWrite 0x01 0x0F ∧
    txn .stFlush c = .regWrite 0x0A 0x80 ∧
    txn .stLoad c = .regWrite 0x09 0x00 ∧
    txn .stMem c = .regWrite 0x01 0x01 ∧
    txn .stArm c = .regWrite 0x36 0x09 ∧
    txn .stSeed c = .regWrite 0x09 0x00 ∧
    txn .stCalc c = .regWrite 0x01 0x03 ∧
    txn .stPoll c = .regRead 0x0A ∧
    txn .stDrain c = .regRead 0x09 ∧
    txn .stDisarm c = .regWrite 0x36 0x00 ∧
    ∀ q : SeqState, q.isTxn = false → txn q c = .regWrite 0x00 0x00

/-! ### Reset (spec/70_reset_and_hazards.md) -/

/-- R144, R145, R41: whatever the state and the other inputs, a reset edge loads the reset values, keeps RESULT and GOLDEN, and
leaves the outputs at their values of R145. -/
def Obligations.ResetEdgeLoadsTheResetValues : Prop :=
  ∀ s : State, s.sample.pins.rst = true →
    ∃ t, step s = .next t ∧
      t.seq = .initRst ∧ t.bte = .pre ∧ t.dly = s.build.tCs - 1 ∧ t.cnt = 0 ∧ t.polls = 0 ∧ t.toFlag = false ∧
      t.cmd = 0x0000 ∧ t.rdata = 0x00 ∧ t.rspStatus.code = 0b00 ∧ t.rspData = 0x00 ∧
      t.result = s.result ∧ t.build = s.build ∧
      t.csN = true ∧ t.xReq = false ∧ t.xTx = 0x00 ∧ t.cmdReady = false ∧ t.rspValid = false ∧
      t.rspStatusPort = 0b00 ∧ t.rspDataPort = 0x00

/-- R146: a reset edge inside a window ends it at once. `cs_n` rises with no hold or post delay, the exchange in progress is not
completed (the trace gains the rise alone; log 7), and there is no response. -/
def Obligations.ResetCutsAnOpenWindow : Prop :=
  ∀ s : State, s.csN = false → s.sample.pins.rst = true →
    ∃ t, step s = .next t ∧ t.csN = true ∧ t.xReq = false ∧ t.rspValid = false ∧ t.cmdReady = false ∧
      t.trace = .cs1 :: s.trace

/-- The state the model starts in holds the reset values R41 gives; the value of RESULT there is the model's choice (log 3), as
are the empty port record, input list and trace (log 2, 5, 6). The parameters meet R8's constraints. -/
def Obligations.PowerUpStateHasTheResetValues : Prop :=
  State.reset.seq = .initRst ∧ State.reset.bte = .pre ∧ State.reset.dly = State.reset.build.tCs - 1 ∧
  State.reset.cnt = 0 ∧ State.reset.polls = 0 ∧ State.reset.toFlag = false ∧ State.reset.cmd = 0x0000 ∧
  State.reset.rdata = 0x00 ∧ State.reset.rspStatus = .ok ∧ State.reset.rspData = 0x00 ∧
  State.reset.build.legal ∧ 1 ≤ State.reset.build.tCs ∧ 1 ≤ State.reset.build.tSettle

/-- R98, R160: after a reset edge the RAC runs one SoftReset write, waits `T_SETTLE` cycles, and is idle for the first time
`L + T_SETTLE` edges later; until then it produces no response and accepts no command. -/
def Obligations.InitSequenceResetsTheDeviceThenIdles : Prop :=
  ∀ (s : State) (r : Byte × Byte) (ps ws rest : List Pins),
    s.seq = .initRst → s.bte = .pre → s.dly = s.build.tCs - 1 →
    ServesTxn s.build r ps → Waits s.build.tSettle ws → s.inputs = [ps, ws, rest].flatten →
    (∃ u, Runs (ps.length + s.build.tSettle) s u ∧ u.seq = .idle ∧ u.cmdReady = true ∧ u.inputs = rest ∧
      u.trace = .cs1 :: .x 0x0F r.2 :: .x 0x02 r.1 :: .cs0 :: s.trace ∧
      u.rspStatus = s.rspStatus ∧ u.rspData = s.rspData ∧ u.result = s.result ∧ u.rdata = s.rdata ∧ u.cmd = s.cmd) ∧
    ∀ m < ps.length + s.build.tSettle, ∃ v, Runs m s v ∧ v.cmdReady = false ∧ v.rspValid = false

/-! ### The commands (spec/40_bus_transactions.md, spec/60_exceptions.md) -/

/-- R99: what the edge in `S_IDLE` does, for each value of `op`, and with no command offered. (`BTE` code 7, which no run reaches,
recovers beside it: UnusedCodesRecover, StepKeepsTheSequencerInvariant.) -/
def Obligations.IdleEdgeAcceptsAndDispatches : Prop :=
  ∀ s : State, s.seq = .idle → s.bte ≠ .unused → s.sample.pins.rst = false →
    let w := s.sample.pins.cmdWord
    (s.sample.pins.cmdValid = false → step s = .next s.sample) ∧
    (s.sample.pins.cmdValid = true → opField w = 0b00 ∨ opField w = 0b01 →
      step s = .next { s.sample with cmd := w, seq := .host, bte := .pre, dly := s.build.tCs - 1 }) ∧
    (s.sample.pins.cmdValid = true → opField w = 0b10 →
      step s = .next { s.sample with cmd := w, polls := 0, toFlag := false, seq := .stRst, bte := .pre, dly := s.build.tCs - 1 }) ∧
    (s.sample.pins.cmdValid = true → opField w = 0b11 →
      step s = .next { s.sample with cmd := w, rspStatus := .illegal, rspData := 0x00, seq := .resp })

/-- R91: `WRITE_REG a, d` answers a next state from which, the peripheral serving its one transaction, the RAC sends exactly the
frame `[hdr(0, a), d]` in one window and then offers `(OK, 0x00)`; TO, POLLS, CNT, RDATA and RESULT are unchanged. -/
def Obligations.WriteRegSendsItsFrameAndRespondsOk : Prop :=
  ∀ (s : State) (a : Addr) (d : Byte) (r : Byte × Byte) (ps rest : List Pins),
    ServesTxn s.build r ps → s.inputs = ps ++ rest →
    ∃ t u, exec (.writeReg a d) s = .next t ∧ t.cmd = 0b00#2 ++ a ++ d ∧ t.seq = .host ∧ Runs ps.length t u ∧
      u.seq = .resp ∧ u.rspValid = true ∧ u.rspStatus = .ok ∧ u.rspData = 0x00 ∧
      u.trace = .cs1 :: .x d r.2 :: .x (hdr false a) r.1 :: .cs0 :: s.trace ∧
      u.cmd = 0b00#2 ++ a ++ d ∧ u.toFlag = s.toFlag ∧ u.polls = s.polls ∧ u.cnt = s.cnt ∧ u.rdata = s.rdata ∧
      u.result = s.result ∧ u.build = s.build ∧ u.inputs = rest

/-- R92: `READ_REG a` answers a next state from which, the peripheral serving its one transaction, the RAC sends exactly
`[hdr(1, a), 0x00]` in one window and then offers `(OK, r)`, `r` the byte received in the second exchange, now in RDATA. The
low byte of the word never reaches the bus. -/
def Obligations.ReadRegSendsItsFrameAndRespondsTheByteRead : Prop :=
  ∀ (s : State) (a : Addr) (x : Byte) (r : Byte × Byte) (ps rest : List Pins),
    ServesTxn s.build r ps → s.inputs = ps ++ rest →
    ∃ t u, exec (.readReg a x) s = .next t ∧ t.cmd = 0b01#2 ++ a ++ x ∧ t.seq = .host ∧ Runs ps.length t u ∧
      u.seq = .resp ∧ u.rspValid = true ∧ u.rspStatus = .ok ∧ u.rspData = r.2 ∧ u.rdata = r.2 ∧
      u.trace = .cs1 :: .x 0x00 r.2 :: .x (hdr true a) r.1 :: .cs0 :: s.trace ∧
      u.cmd = 0b01#2 ++ a ++ x ∧ u.toFlag = s.toFlag ∧ u.polls = s.polls ∧ u.cnt = s.cnt ∧
      u.result = s.result ∧ u.build = s.build ∧ u.inputs = rest

/-- R128: a reserved word answers `(ILLEGAL, 0x00)` at its acceptance edge, changes no register but CMD, SEQ and the response
registers, and leaves `cs_n` at 1 and the bus trace as it was; the same from the step that accepts it. (`BTE` code 7, which no run
reaches, recovers beside it: UnusedCodesRecover, StepKeepsTheSequencerInvariant.) -/
def Obligations.ReservedWordRespondsIllegalWithoutBusActivity : Prop :=
  (∀ (s : State) (w : CmdWord), (Instr.illegal w).wellFormed = true →
    exec (.illegal w) s = .next { s with cmd := w, seq := .resp, rspStatus := .illegal, rspData := 0x00 }) ∧
  (∀ s : State, s.seq = .idle → s.bte ≠ .unused → s.sample.pins.rst = false → s.sample.pins.cmdValid = true →
    s.sample.pins.cmdWord.getLsbD 15 = true → s.sample.pins.cmdWord.getLsbD 14 = true →
    ∃ t, step s = .next t ∧
      t = { s.sample with cmd := s.sample.pins.cmdWord, seq := .resp, rspStatus := .illegal, rspData := 0x00 } ∧
      s.csN = true ∧ t.csN = true ∧ t.xReq = false ∧ t.rspValid = true)

/-- What acceptance leaves unchanged, instruction by instruction, and what the end of a header exchange leaves unchanged. The
RAC has no memory, so the bus trace stands where stored bytes would. -/
def Obligations.InstructionFrames : Prop :=
  ∀ s t : State,
    (∀ i : Instr, (∃ a d, i = .writeReg a d) ∨ (∃ a x, i = .readReg a x) ∨ (∃ b, i = .selfTest b) ∨ (∃ w, i = .illegal w) →
      exec i s = .next t →
      t.build = s.build ∧ t.cnt = s.cnt ∧ t.rdata = s.rdata ∧ t.result = s.result ∧ t.trace = s.trace ∧
      t.pins = s.pins ∧ t.inputs = s.inputs ∧ t.drawn = s.drawn ∧
      ((∀ b, i ≠ .selfTest b) → t.polls = s.polls ∧ t.toFlag = s.toFlag) ∧
      ((∀ w, i ≠ .illegal w) → t.rspStatus = s.rspStatus ∧ t.rspData = s.rspData) ∧
      (∀ w, i = .illegal w → t.bte = s.bte ∧ t.dly = s.dly)) ∧
    (∀ (i : Instr) (a : Addr), i = .spiWrHdr a ∨ i = .spiRdHdr a → exec i s = .next t →
      t.build = s.build ∧ t.cmd = s.cmd ∧ t.seq = s.seq ∧ t.dly = s.dly ∧ t.cnt = s.cnt ∧ t.polls = s.polls ∧
      t.toFlag = s.toFlag ∧ t.rdata = s.rdata ∧ t.rspStatus = s.rspStatus ∧ t.rspData = s.rspData ∧
      t.result = s.result ∧ t.pins = s.pins ∧ t.inputs = s.inputs ∧ t.drawn = s.drawn)

/-! ### Transactions (spec/40_bus_transactions.md R77 to R90) -/

/-- R81 and the header rows of the opcode table. That a header byte is an instruction, and that its meaning in any state is the end
of its exchange, is the model's choice (log 13); the effect is R81's. Each header byte's meaning answers a next state in the gap, with the event of
its exchange; and the step at which the header exchange of any transaction completes runs the header byte of that
transaction, write or read, its received byte reaching no register. -/
def Obligations.HeaderExchangeCompletesInTheGap : Prop :=
  (∀ (s : State) (a : Addr),
    exec (.spiWrHdr a) s = .next { s with bte := .gap, trace := .x (hdr false a) s.pins.xRx :: s.trace } ∧
    exec (.spiRdHdr a) s = .next { s with bte := .gap, trace := .x (hdr true a) s.pins.xRx :: s.trace }) ∧
  (∀ s : State, s.seq.isTxn = true → s.bte = .hdr → s.sample.pins.rst = false → s.sample.pins.xDone = true →
    step s = exec (match s.txn with | .regWrite a _ => .spiWrHdr a | .regRead a => .spiRdHdr a) s.sample ∧
    step s = .next { s.sample with bte := .gap, trace := .x (hdr s.txn.rw s.txn.addr) s.sample.pins.xRx :: s.trace })

/-- From the first `B_PRE` cycle of any transaction state, the peripheral serving it, the engine runs once to its completion
edge: `L = 4 * T_CS + h + d + 1` edges, one window with the two bytes of the frame, RDATA written by a read alone, SEQ and CMD
held to the end, and then the sequencer's action (R77 to R86, R89, R157). -/
def Obligations.TransactionRunsOnceToItsCompletionEdge : Prop :=
  ∀ (s : State) (r : Byte × Byte) (ps rest : List Pins),
    s.seq.isTxn = true → s.bte = .pre → s.dly = s.build.tCs - 1 → ServesTxn s.build r ps → s.inputs = ps ++ rest →
    (∃ h d, 1 ≤ h ∧ 1 ≤ d ∧ ps.length = 4 * s.build.tCs + h + d + 1) ∧
    (∃ last u, Runs ps.length s u ∧ ps.getLast? = some last ∧
      u = State.complete { s with
        pins := last, inputs := rest, bte := .post, dly := 0
        rdata := if s.txn.rw then r.2 else s.rdata
        trace := .cs1 :: .x s.txn.secondByte r.2 :: .x (hdr s.txn.rw s.txn.addr) r.1 :: .cs0 :: s.trace }) ∧
    ∀ m < ps.length, ∃ v, Runs m s v ∧ v.seq = s.seq ∧ v.cmd = s.cmd ∧ v.cmdReady = false ∧ v.rspValid = false

/-- R78, R79, R84, R85, R94: the four settle delays last exactly `T_CS` cycles each, whatever the command and the other inputs; the
edge that ends the fourth is the completion edge. -/
def Obligations.SettleDelaysBracketEveryWindow : Prop :=
  ∀ (s : State) (ws rest : List Pins), s.seq.isTxn = true → s.dly = s.build.tCs - 1 →
    Waits (2 * s.build.tCs) ws → s.inputs = ws ++ rest →
    (s.bte = .pre →
      (∀ m < s.build.tCs, ∃ v, Runs m s v ∧ v.csN = true ∧ v.xReq = false) ∧
      (∀ m < s.build.tCs, ∃ v, Runs (s.build.tCs + m) s v ∧ v.csN = false ∧ v.xReq = false) ∧
      ∃ v, Runs (2 * s.build.tCs) s v ∧ v.csN = false ∧ v.xReq = true ∧ v.bte = .hdr) ∧
    (s.bte = .hold →
      (∀ m < s.build.tCs, ∃ v, Runs m s v ∧ v.csN = false ∧ v.xReq = false) ∧
      (∀ m < s.build.tCs, ∃ v, Runs (s.build.tCs + m) s v ∧ v.csN = true ∧ v.xReq = false ∧ v.seq = s.seq ∧
        v.bte = .post) ∧
      ∃ last, ws.getLast? = some last ∧
        Runs (2 * s.build.tCs) s
          (State.complete { s with pins := last, inputs := rest, bte := .post, dly := 0, trace := .cs1 :: s.trace }))

/-- R98, R103: the soft-reset settle lasts exactly `T_SETTLE` cycles with `cs_n` at 1, and then the RAC is idle (init) or flushes
(self-test). -/
def Obligations.SoftResetSettleLastsTSettle : Prop :=
  ∀ (s : State) (ws rest : List Pins), s.seq = .initWait ∨ s.seq = .stWait → s.bte ≠ .unused →
    s.dly = s.build.tSettle - 1 →
    Waits s.build.tSettle ws → s.inputs = ws ++ rest →
    (∀ m < s.build.tSettle, ∃ v, Runs m s v ∧ v.seq = s.seq ∧ v.csN = true ∧ v.trace = s.trace) ∧
    (s.seq = .initWait → ∃ v, Runs s.build.tSettle s v ∧ v.seq = .idle ∧ v.trace = s.trace) ∧
    (s.seq = .stWait → ∃ v, Runs s.build.tSettle s v ∧ v.seq = .stFlush ∧ v.bte = .pre ∧ v.dly = s.build.tCs - 1 ∧
      v.trace = s.trace)

/-- R80: while an exchange is not completed the request and the byte sent do not change; its completion is one trace event, and
`x_req` is 0 in the next cycle. -/
def Obligations.ExchangeIsHeldUntilDoneThenReleased : Prop :=
  ∀ s : State, s.xReq = true → s.sample.pins.rst = false →
    (s.sample.pins.xDone = false → ∃ t, step s = .next t ∧ t.xReq = true ∧ t.xTx = s.xTx ∧ t.trace = s.trace) ∧
    (s.sample.pins.xDone = true → ∃ t, step s = .next t ∧ t.xReq = false ∧ t.csN = false ∧
      t.trace = .x s.xTx s.sample.pins.xRx :: s.trace)

/-- R80, items 1, 2, 3 and 5: a peripheral that keeps its duty completes every exchange that no reset cuts. Until it does the request
and the byte sent do not change and no event is recorded; its completion is one event, with the byte received at that edge. -/
def Obligations.FairPeripheralCompletesEveryExchange : Prop :=
  ∀ (f : Nat → Pins) (σ : Nat → State) (n : Nat),
    Drives f σ → PeripheralCompletes f σ → (∀ m ≥ n, (f m).rst = false) → (σ n).xReq = true →
    ∃ m ≥ n, (f m).xDone = true ∧ (σ (m + 1)).xReq = false ∧
      (σ (m + 1)).trace = .x (σ n).xTx (f m).xRx :: (σ n).trace ∧
      ∀ k, n ≤ k → k ≤ m → (σ k).xReq = true ∧ (σ k).xTx = (σ n).xTx ∧ (σ k).trace = (σ n).trace

/-- R88: the byte received reaches no register, except RDATA in the data exchange of a read, which takes it whole. -/
def Obligations.ReceivedByteReachesOnlyReadData : Prop :=
  ∀ (s : State) (p : Pins) (rx : Byte) (rest : List Pins),
    ∃ t u, step { s with inputs := p :: rest } = .next t ∧ step { s with inputs := { p with xRx := rx } :: rest } = .next u ∧
      { u with pins := t.pins, trace := t.trace, rdata := t.rdata } = t ∧
      (¬ (s.seq.isTxn = true ∧ s.bte = .data ∧ s.txn.rw = true) → t.rdata = u.rdata) ∧
      (s.seq.isTxn = true → s.bte = .data → s.txn.rw = true → p.rst = false → p.xDone = true →
        t.rdata = p.xRx ∧ u.rdata = rx)

/-- R134, R161: each input is read in one state only. Two offers of port values that agree on `rst`, on the command port in
`S_IDLE`, on `rsp_ready` in `S_RESP` and on the exchange port in `B_HDR` and `B_DATA` give the same next state; after a reset
edge nothing else matters at all. -/
def Obligations.EachInputIsReadInOneStateOnly : Prop :=
  ∀ (s : State) (p q : Pins) (rest : List Pins), p.rst = q.rst →
    (p.rst = false → s.cmdReady = true → p.cmdValid = q.cmdValid ∧ (p.cmdValid = true → p.cmdWord = q.cmdWord)) →
    (p.rst = false → s.rspValid = true → p.rspReady = q.rspReady) →
    (p.rst = false → s.xReq = true → p.xDone = q.xDone ∧ (p.xDone = true → p.xRx = q.xRx)) →
    ∃ t u, step { s with inputs := p :: rest } = .next t ∧ step { s with inputs := q :: rest } = .next u ∧
      { u with pins := t.pins } = t

/-- R154: a peripheral that never completes an exchange holds the RAC in it for ever. -/
def Obligations.SilentPeripheralHoldsTheExchange : Prop :=
  ∀ (s : State) (ps rest : List Pins), s.xReq = true → (∀ p ∈ ps, p.rst = false ∧ p.xDone = false) →
    s.inputs = ps ++ rest →
    ∃ u, Runs ps.length s u ∧ { u with pins := s.pins, inputs := s.inputs } = s ∧ u.inputs = rest ∧ u.xReq = true ∧
      u.xTx = s.xTx ∧ u.cmdReady = false ∧ u.rspValid = false

/-! ### Responses (spec/60_exceptions.md) -/

/-- R117, R137: in `S_RESP` the response is taken at an edge with `rsp_ready == 1`, and the RAC is idle; otherwise nothing
changes. Either way the response registers keep their values (R30). (`BTE` code 7, which no run reaches, recovers beside it:
UnusedCodesRecover, StepKeepsTheSequencerInvariant.) -/
def Obligations.ResponseIsTakenOrHeld : Prop :=
  ∀ s : State, s.seq = .resp → s.bte ≠ .unused → s.sample.pins.rst = false →
    s.rspValid = true ∧
    (s.sample.pins.rspReady = true → step s = .next { s.sample with seq := .idle }) ∧
    (s.sample.pins.rspReady = false → step s = .next s.sample)

/-- R154, R163: a host that never asserts `rsp_ready` holds the RAC in `S_RESP` for ever, the response offered and no command
accepted. -/
def Obligations.UntakenResponseIsHeldForEver : Prop :=
  ∀ (s : State) (ps rest : List Pins), s.rspValid = true → s.bte ≠ .unused → (∀ p ∈ ps, p.rst = false ∧ p.rspReady = false) →
    s.inputs = ps ++ rest →
    ∃ u, Runs ps.length s u ∧ { u with pins := s.pins, inputs := s.inputs } = s ∧ u.inputs = rest ∧ u.rspValid = true ∧
      u.cmdReady = false

/-- R163: a host that keeps its duty takes every response that no reset withdraws. Until it does, the RAC holds the response, the
same all the while, and accepts no command; then it is ready for a command. -/
def Obligations.FairHostTakesEveryResponse : Prop :=
  ∀ (f : Nat → Pins) (σ : Nat → State) (n : Nat),
    Drives f σ → HostTakesResponses f σ → (∀ m ≥ n, (f m).rst = false) → (σ n).rspValid = true →
    ∃ m ≥ n, (f m).rspReady = true ∧ (σ (m + 1)).cmdReady = true ∧ (σ (m + 1)).rspValid = false ∧
      ∀ k, n ≤ k → k ≤ m → (σ k).rspValid = true ∧ (σ k).cmdReady = false ∧
        (σ k).rspStatusPort = (σ n).rspStatusPort ∧ (σ k).rspDataPort = (σ n).rspDataPort

/-- R127, R126: a response begins only where its status allows: ILLEGAL at the acceptance of a reserved word, OK for a host
command and TIMEOUT for a self-test at the completion edge of a transaction whose window is closed, OK or MISMATCH at the
comparison. The data byte is 0x00 but for a read. -/
def Obligations.ResponsesBeginAfterTheLastWindowCloses : Prop :=
  ∀ s t : State, step s = .next t → s.seq ≠ .resp → t.seq = .resp →
    s.csN = true ∧ t.trace = s.trace ∧
    ((s.seq = .idle ∧ s.sample.pins.cmdValid = true ∧ opField s.sample.pins.cmdWord = 0b11 ∧ t.rspStatus = .illegal ∧ t.rspData = 0x00) ∨
     (s.seq = .host ∧ s.bte = .post ∧ s.dly = 0 ∧ t.rspStatus = .ok ∧
        t.rspData = (if s.cmd.getLsbD 14 then s.rdata else 0x00)) ∨
     (s.seq = .stDisarm ∧ s.bte = .post ∧ s.dly = 0 ∧ s.toFlag = true ∧ t.rspStatus = .timeout ∧ t.rspData = 0x00) ∨
     (s.seq = .stVerify ∧ (t.rspStatus = .ok ∨ t.rspStatus = .mismatch) ∧ t.rspData = 0x00))

/-! ### What writes each register (spec/10_state.md) -/

/-- CMD is written only at acceptance and by reset (R21); in particular a command offered while `cmd_ready` is 0 is not taken
(R162). -/
def Obligations.CommandRegisterChangesOnlyAtAcceptance : Prop :=
  ∀ s : State, ∃ t, step s = .next t ∧
    t.cmd = (if s.sample.pins.rst then 0x0000
      else if s.cmdReady && s.sample.pins.cmdValid then s.sample.pins.cmdWord else s.cmd)

/-- RDATA is written only by the second exchange of a read transaction and by reset (R29, R83). -/
def Obligations.ReadDataChangesOnlyByReadTransactions : Prop :=
  ∀ s : State, ∃ t, step s = .next t ∧
    t.rdata = (if s.sample.pins.rst then 0x00
      else if s.seq.isTxn && (s.bte == .data) && s.sample.pins.xDone && s.txn.rw then s.sample.pins.xRx else s.rdata)

/-- RESULT is written only at the completion edge of a drain read, and only its entry CNT (R31, R113); reset keeps it. -/
def Obligations.ResultChangesOnlyByDrainReads : Prop :=
  ∀ s : State, ∃ t, step s = .next t ∧ ∀ i : Fin 64,
    t.result[i] = (if s.sample.pins.rst = false ∧ s.seq = .stDrain ∧ s.bte = .post ∧ s.dly = 0 ∧ i.val = s.cnt.toNat
      then s.rdata else s.result[i])

/-- R32: "No command and no reset writes it": GOLDEN, and with it every build parameter, is constant. -/
def Obligations.GoldenAndParametersNeverChange : Prop :=
  ∀ s t : State, step s = .next t → t.build = s.build

/-- R8, R50: `SPI_MODE` is "not a property of the RAC", and of `CLK_HZ` only the bound on `T_SETTLE` speaks: changing either changes
no step in anything else, output ports and bus trace included. -/
def Obligations.SpiModeAndClockRateAreNeverRead : Prop :=
  ∀ (s : State) (m : SpiMode) (hz : Nat),
    let as := fun t : State => { t with build := { t.build with spiMode := m, clkHz := hz } }
    ∃ t, step s = .next t ∧ step (as s) = .next (as t) ∧
      (as s).csN = s.csN ∧ (as s).xReq = s.xReq ∧ (as s).xTx = s.xTx ∧ (as s).cmdReady = s.cmdReady ∧
      (as s).rspValid = s.rspValid ∧ (as s).rspStatusPort = s.rspStatusPort ∧ (as s).rspDataPort = s.rspDataPort

/-- The response registers change only where a response begins, and by reset (R30). -/
def Obligations.ResponseRegistersChangeOnlyByRespond : Prop :=
  ∀ s t : State, step s = .next t → s.sample.pins.rst = false →
    (t.rspStatus ≠ s.rspStatus ∨ t.rspData ≠ s.rspData) → s.seq ≠ .resp ∧ t.seq = .resp

/-- R23, R24: the unused codes recover at the next edge without reset. An unused `SEQ` code goes to `S_INIT_RST` with the engine at
`B_PRE`. `BTE` code 7 goes to `B_PRE` with DLY loaded whatever `SEQ` is: in a transaction state nothing else changes; in `S_IDLE`,
`S_RESP` and `S_ST_VERIFY` the rest of the edge is that of the recovered state; in a settle wait DLY is loaded anew, or, where it
was 0, the wait ends as it would. What the sequencer does at that edge outside `TXN_STATES` is the model's reading (log 21). -/
def Obligations.UnusedCodesRecover : Prop :=
  ∀ s : State, s.sample.pins.rst = false →
    (∀ k, s.seq = .unused k → step s = .next { s.sample with seq := .initRst, bte := .pre, dly := s.build.tCs - 1 }) ∧
    (s.bte = .unused →
      (∃ t, step s = .next t ∧ t.bte = .pre ∧ t.dly = s.build.tCs - 1) ∧
      (s.seq.isTxn = true → step s = .next { s.sample with bte := .pre, dly := s.build.tCs - 1 }) ∧
      (s.seq = .idle ∨ s.seq = .resp ∨ s.seq = .stVerify → step s = step { s with bte := .pre, dly := s.build.tCs - 1 }) ∧
      (s.seq = .initWait ∨ s.seq = .stWait → s.dly ≠ 0 →
        step s = .next { s.sample with bte := .pre, dly := s.build.tCs - 1 }) ∧
      (s.seq = .initWait → s.dly = 0 →
        step s = .next { s.sample with seq := .idle, bte := .pre, dly := s.build.tCs - 1 }) ∧
      (s.seq = .stWait → s.dly = 0 →
        step s = .next { s.sample with seq := .stFlush, bte := .pre, dly := s.build.tCs - 1 }))

/-! ### The self-test (spec/41_self_test.md) -/

/-- R103 to R109, R124: the completion edge of each fixed write of the self-test leads to the next step's transaction, the
SoftReset write to the settle delay, the flush to a cleared CNT; the settle delay ends in the flush. -/
def Obligations.FixedStepsFollowInOrder : Prop :=
  ∀ s : State, s.bte = .post → s.dly = 0 → s.sample.pins.rst = false →
    let next := fun q => Host.Outcome.next { s.sample with seq := q, bte := BteState.pre, dly := s.build.tCs - 1 }
    (s.seq = .stRst → step s = .next { s.sample with seq := .stWait, dly := s.build.tSettle - 1 }) ∧
    (s.seq = .stWait → step s = next .stFlush) ∧
    (s.seq = .stFlush →
      step s = .next { s.sample with seq := .stLoad, bte := .pre, dly := s.build.tCs - 1, cnt := 0 }) ∧
    (s.seq = .stMem → step s = next .stArm) ∧
    (s.seq = .stArm → step s = next .stSeed) ∧
    (s.seq = .stSeed → step s = next .stCalc) ∧
    (s.seq = .stCalc → step s = next .stPoll)

/-- R105: step 3 writes exactly 25 bytes of 0x00 into FIFOData, each in its own window, CNT counting 0 to 24, and goes on to
step 4. -/
def Obligations.LoadWritesExactlyTwentyFiveBytes : Prop :=
  ∀ (s : State) (rs : List (Byte × Byte)) (ps rest : List Pins),
    s.seq = .stLoad → s.bte = .pre → s.dly = s.build.tCs - 1 → s.cnt = 0 →
    rs.length = 25 → ServesAll s.build rs ps → s.inputs = ps ++ rest →
    ∃ u, Runs ps.length s u ∧ u.seq = .stMem ∧ u.bte = .pre ∧ u.dly = s.build.tCs - 1 ∧ u.cnt = 24 ∧
      u.trace = (eventsOf (List.replicate 25 (.regWrite 0x09 0x00)) rs).reverse ++ s.trace ∧
      u.cmd = s.cmd ∧ u.polls = s.polls ∧ u.toFlag = s.toFlag ∧ u.rdata = s.rdata ∧ u.rspStatus = s.rspStatus ∧
      u.rspData = s.rspData ∧ u.result = s.result ∧ u.build = s.build ∧ u.inputs = rest

/-- R110, R111, R112: the completion edge of a poll. POLLS counts it, saturating; a level of 64 or more drains, whatever the
bound; else the bound, if it is not 0 and now reached, sets TO and disarms; else the next poll follows. -/
def Obligations.PollDrainsThenTimesOutThenRepeats : Prop :=
  ∀ s : State, s.seq = .stPoll → s.bte = .post → s.dly = 0 → s.sample.pins.rst = false →
    let p : BitVec 14 := BitVec.ofNat 14 (min (s.polls.toNat + 1) 16383)
    let bound : BitVec 14 := s.cmd.extractLsb' 0 14
    (64 ≤ s.rdata.toNat →
      step s = .next { s.sample with polls := p, cnt := 0, seq := .stDrain, bte := .pre, dly := s.build.tCs - 1 }) ∧
    (s.rdata.toNat < 64 → bound ≠ 0 → p = bound →
      step s = .next { s.sample with polls := p, toFlag := true, seq := .stDisarm, bte := .pre, dly := s.build.tCs - 1 }) ∧
    (s.rdata.toNat < 64 → bound = 0 ∨ p ≠ bound →
      step s = .next { s.sample with polls := p, seq := .stPoll, bte := .pre, dly := s.build.tCs - 1 })

/-- R121: with BOUND 0 and a level that never reaches 64 the RAC polls for ever: however many polls there have been it is at the
start of another, and at no edge on the way has it left `S_ST_POLL`, offered a response or raised `cmd_ready`. -/
def Obligations.UnboundedPollingNeverEnds : Prop :=
  ∀ (s : State) (rs : List (Byte × Byte)) (ps rest : List Pins),
    s.seq = .stPoll → s.bte = .pre → s.dly = s.build.tCs - 1 → s.bound = 0 →
    (∀ r ∈ rs, r.2.toNat < 64) → ServesAll s.build rs ps → s.inputs = ps ++ rest →
    ∃ u, Runs ps.length s u ∧ u.seq = .stPoll ∧ u.bte = .pre ∧ u.dly = s.build.tCs - 1 ∧ u.bound = 0 ∧
      u.inputs = rest ∧
      u.trace = (eventsOf (List.replicate rs.length (.regRead 0x0A)) rs).reverse ++ s.trace ∧
      ∀ m ≤ ps.length, ∃ v, Runs m s v ∧ v.seq = .stPoll ∧ v.cmdReady = false ∧ v.rspValid = false

/-- R113: step 9 reads FIFOData exactly 64 times, one window each, the i-th byte read into RESULT[i], and goes on to step 10. -/
def Obligations.DrainFillsTheResultInOrder : Prop :=
  ∀ (s : State) (rs : List (Byte × Byte)) (ps rest : List Pins),
    s.seq = .stDrain → s.bte = .pre → s.dly = s.build.tCs - 1 → s.cnt = 0 →
    rs.length = 64 → ServesAll s.build rs ps → s.inputs = ps ++ rest →
    ∃ u, Runs ps.length s u ∧ u.seq = .stDisarm ∧ u.bte = .pre ∧ u.dly = s.build.tCs - 1 ∧ u.cnt = 63 ∧
      u.result.toList = rs.map Prod.snd ∧
      u.trace = (eventsOf (List.replicate 64 (.regRead 0x09)) rs).reverse ++ s.trace ∧
      u.cmd = s.cmd ∧ u.polls = s.polls ∧ u.toFlag = s.toFlag ∧ u.rspStatus = s.rspStatus ∧ u.rspData = s.rspData ∧
      u.build = s.build ∧ u.inputs = rest

/-- R114: the completion edge of the disarm write responds TIMEOUT if TO is set, and otherwise goes on to the comparison. -/
def Obligations.DisarmTimesOutOrCompares : Prop :=
  ∀ s : State, s.seq = .stDisarm → s.bte = .post → s.dly = 0 → s.sample.pins.rst = false →
    (s.toFlag = true → step s = .next { s.sample with rspStatus := .timeout, rspData := 0x00, seq := .resp }) ∧
    (s.toFlag = false → step s = .next { s.sample with seq := .stVerify })

/-- R116: the comparison takes one edge and is exact equality over all 64 positions: OK when every byte matches, MISMATCH when
any one differs; nothing but the response and SEQ changes. (`BTE` code 7, which no run reaches, recovers beside it:
UnusedCodesRecover, StepKeepsTheSequencerInvariant.) -/
def Obligations.VerifyIsEqualityOfAllSixtyFourBytes : Prop :=
  ∀ s : State, s.seq = .stVerify → s.bte ≠ .unused → s.sample.pins.rst = false →
    ((∀ i : Fin 64, s.result[i] = s.build.golden[i]) →
      step s = .next { s.sample with rspStatus := .ok, rspData := 0x00, seq := .resp }) ∧
    ((∃ i : Fin 64, s.result[i] ≠ s.build.golden[i]) →
      step s = .next { s.sample with rspStatus := .mismatch, rspData := 0x00, seq := .resp })

/-- R118, R119, R113, R116, R120, R159: `SELF_TEST b` answers a next state from which, the peripheral serving its transactions
and the level reaching 64 at poll number `k` (within the bound, if there is one), the RAC issues exactly the `96 + k`
transactions of R118 in order, holds the 64 drained bytes in RESULT, and offers OK if they are GOLDEN and MISMATCH otherwise,
with data 0x00, `S + T_SETTLE + 1` edges after the acceptance edge. -/
def Obligations.SelfTestComparesTheDrainedBytes : Prop :=
  ∀ (s : State) (b : Bound) (r0 last fin : Byte × Byte) (setup polls drain : List (Byte × Byte))
    (p0 ws p1 rest : List Pins) (v : Pins),
    ServesTxn s.build r0 p0 → Waits s.build.tSettle ws →
    setup.length = 30 → (∀ r ∈ polls, r.2.toNat < 64) → 64 ≤ last.2.toNat → (b = 0 ∨ polls.length + 1 ≤ b.toNat) →
    drain.length = 64 → ServesAll s.build [setup, polls, [last], drain, [fin]].flatten p1 → v.rst = false →
    s.inputs = [p0, ws, p1, [v], rest].flatten →
    ∃ t u, exec (.selfTest b) s = .next t ∧ t.seq = .stRst ∧
      Runs (p0.length + s.build.tSettle + p1.length + 1) t u ∧
      u.seq = .resp ∧ u.rspData = 0x00 ∧
      ((∀ i : Fin 64, (drain.map Prod.snd)[i]? = some s.build.golden[i]) → u.rspStatus = .ok) ∧
      ((∃ i : Fin 64, (drain.map Prod.snd)[i]? ≠ some s.build.golden[i]) → u.rspStatus = .mismatch) ∧
      u.result.toList = drain.map Prod.snd ∧
      u.trace = (eventsOf (comparePathTxns (polls.length + 1)) (r0 :: [setup, polls, [last], drain, [fin]].flatten)).reverse
        ++ s.trace ∧
      u.toFlag = false ∧ u.polls = BitVec.ofNat 14 (min (polls.length + 1) 16383) ∧ u.cnt = 63 ∧
      u.cmd = 0b10#2 ++ b ∧ u.build = s.build ∧ u.inputs = rest

/-- R111, R118, R119, R130, R159: `SELF_TEST b` with `b` at least 1 answers a next state from which, the peripheral serving its
transactions and every one of `b` polls reading below 64, the RAC issues exactly the `32 + b` transactions of R118 in order,
drains nothing, leaves RESULT as it was, and offers `(TIMEOUT, 0x00)` `S + T_SETTLE` edges after the acceptance edge. -/
def Obligations.SelfTestTimesOutAtItsBound : Prop :=
  ∀ (s : State) (b : Bound) (r0 fin : Byte × Byte) (setup polls : List (Byte × Byte)) (p0 ws p1 rest : List Pins),
    ServesTxn s.build r0 p0 → Waits s.build.tSettle ws →
    setup.length = 30 → (∀ r ∈ polls, r.2.toNat < 64) → b ≠ 0 → polls.length = b.toNat →
    ServesAll s.build [setup, polls, [fin]].flatten p1 → s.inputs = [p0, ws, p1, rest].flatten →
    ∃ t u, exec (.selfTest b) s = .next t ∧ t.seq = .stRst ∧
      Runs (p0.length + s.build.tSettle + p1.length) t u ∧
      u.seq = .resp ∧ u.rspStatus = .timeout ∧ u.rspData = 0x00 ∧ u.result = s.result ∧
      u.trace = (eventsOf (timeoutPathTxns b.toNat) (r0 :: [setup, polls, [fin]].flatten)).reverse ++ s.trace ∧
      u.toFlag = true ∧ u.polls = b ∧ u.cnt = 24 ∧ u.cmd = 0b10#2 ++ b ∧ u.build = s.build ∧ u.inputs = rest

/-! ### Invariants -/

/-- The bus trace records the edges of `cs_n` and the completed exchanges, each once and nothing else, at every step (R12, R80). -/
def Obligations.TraceRecordsEveryBusEvent : Prop :=
  ∀ s : State, ∃ t, step s = .next t ∧
    t.trace =
      if s.csN = true ∧ t.csN = false then .cs0 :: s.trace
      else if s.csN = false ∧ t.csN = true then .cs1 :: s.trace
      else if s.sample.pins.rst = false ∧ s.xReq = true ∧ s.sample.pins.xDone = true
        then .x s.xTx s.sample.pins.xRx :: s.trace
      else s.trace

/-- R93, R70: every step keeps the bus trace bracketed: windows never nest, no exchange lies outside one, none holds more than
two, and none begins with a byte whose bit 0 is set; the last window is open exactly while `cs_n` is 0. -/
def Obligations.StepKeepsTheTraceBracketed : Prop :=
  ∀ s t : State, Bracketed s → step s = .next t → Bracketed t

/-- The state after reset is bracketed. -/
def Obligations.ResetStateIsBracketed : Prop :=
  Bracketed State.reset

/-- R93: unless reset intervenes, a window that closes holds exactly two exchanges. -/
def Obligations.UninterruptedWindowsHoldTwoExchanges : Prop :=
  ∀ s t : State, Bracketed s → step s = .next t → s.sample.pins.rst = false → s.csN = false → t.csN = true →
    windowOf s.trace = some (.opened 2) ∧ s.bte = .hold ∧ s.dly = 0

/-- Every step keeps the sequencer's invariant: the named codes, the ranges of DLY and CNT, the poll count within the bound, TO
set only on the timeout path. -/
def Obligations.StepKeepsTheSequencerInvariant : Prop :=
  ∀ s t : State, SequencerInv s → step s = .next t → SequencerInv t

/-- The state after reset meets the sequencer's invariant. -/
def Obligations.ResetStateMeetsTheSequencerInvariant : Prop :=
  SequencerInv State.reset

/-- R25: DLY, a number without a width in the model, always fits the width the spec gives it; so it does after reset. -/
def Obligations.DelayCounterFitsItsWidth : Prop :=
  (∀ s t : State, s.dly < 2 ^ s.build.wDly → step s = .next t → t.dly < 2 ^ t.build.wDly) ∧
  State.reset.dly < 2 ^ State.reset.build.wDly
end

