-- ==== Sys2Proof/Laws/Decode.lean ====
section
/-! SUPPORT. The header byte and its decoder. -/

namespace Sys2Proof

theorem hdr_bit_zero (rw : Bool) (a : Addr) : (hdr rw a).getLsbD 0 = false := by
  simp only [hdr, BitVec.getLsbD_append]
  rfl

theorem hdr_mode_bit (rw : Bool) (a : Addr) : (hdr rw a).getLsbD 7 = rw := by
  simp only [hdr, BitVec.getLsbD_append]
  cases rw <;> rfl

theorem hdrAddr_hdr (rw : Bool) (a : Addr) : hdrAddr (hdr rw a) = a := by
  ext i hi
  simp only [hdrAddr, hdr, BitVec.getElem_extractLsb', BitVec.getLsbD_append]
  have h1 : ¬ (1 + i < 1) := by omega
  have h2 : 1 + i - 1 < 6 := by omega
  simp [hi]

/-- The decoder reads every header byte the RAC assembles as the header it is (R70). -/
theorem decodeHeader_hdr (rw : Bool) (a : Addr) :
    decodeHeader (hdr rw a) = .ok (if rw then .spiRdHdr a else .spiWrHdr a) := by
  simp only [decodeHeader, hdr_bit_zero, hdr_mode_bit, hdrAddr_hdr]
  cases rw <;> simp

end Sys2Proof
end

