-- ==== Sys2Proof/Laws/State.lean ====
section
/-! SUPPORT. What each shared update of State leaves in each field, so that no proof unfolds a record update. -/

namespace Sys2Proof.Machine.State

variable (s : State)

/-! ### `record` -/

@[simp] theorem record_build (e : BusEvent) : (s.record e).build = s.build := rfl
@[simp] theorem record_cmd (e : BusEvent) : (s.record e).cmd = s.cmd := rfl
@[simp] theorem record_seq (e : BusEvent) : (s.record e).seq = s.seq := rfl
@[simp] theorem record_bte (e : BusEvent) : (s.record e).bte = s.bte := rfl
@[simp] theorem record_dly (e : BusEvent) : (s.record e).dly = s.dly := rfl
@[simp] theorem record_cnt (e : BusEvent) : (s.record e).cnt = s.cnt := rfl
@[simp] theorem record_polls (e : BusEvent) : (s.record e).polls = s.polls := rfl
@[simp] theorem record_toFlag (e : BusEvent) : (s.record e).toFlag = s.toFlag := rfl
@[simp] theorem record_rdata (e : BusEvent) : (s.record e).rdata = s.rdata := rfl
@[simp] theorem record_rspStatus (e : BusEvent) : (s.record e).rspStatus = s.rspStatus := rfl
@[simp] theorem record_rspData (e : BusEvent) : (s.record e).rspData = s.rspData := rfl
@[simp] theorem record_result (e : BusEvent) : (s.record e).result = s.result := rfl
@[simp] theorem record_pins (e : BusEvent) : (s.record e).pins = s.pins := rfl
@[simp] theorem record_inputs (e : BusEvent) : (s.record e).inputs = s.inputs := rfl
@[simp] theorem record_drawn (e : BusEvent) : (s.record e).drawn = s.drawn := rfl
@[simp] theorem record_trace (e : BusEvent) : (s.record e).trace = e :: s.trace := rfl

/-! ### `countDown` -/

@[simp] theorem countDown_build : (s.countDown).build = s.build := rfl
@[simp] theorem countDown_cmd : (s.countDown).cmd = s.cmd := rfl
@[simp] theorem countDown_seq : (s.countDown).seq = s.seq := rfl
@[simp] theorem countDown_bte : (s.countDown).bte = s.bte := rfl
@[simp] theorem countDown_dly : (s.countDown).dly = s.dly - 1 := rfl
@[simp] theorem countDown_cnt : (s.countDown).cnt = s.cnt := rfl
@[simp] theorem countDown_polls : (s.countDown).polls = s.polls := rfl
@[simp] theorem countDown_toFlag : (s.countDown).toFlag = s.toFlag := rfl
@[simp] theorem countDown_rdata : (s.countDown).rdata = s.rdata := rfl
@[simp] theorem countDown_rspStatus : (s.countDown).rspStatus = s.rspStatus := rfl
@[simp] theorem countDown_rspData : (s.countDown).rspData = s.rspData := rfl
@[simp] theorem countDown_result : (s.countDown).result = s.result := rfl
@[simp] theorem countDown_pins : (s.countDown).pins = s.pins := rfl
@[simp] theorem countDown_inputs : (s.countDown).inputs = s.inputs := rfl
@[simp] theorem countDown_drawn : (s.countDown).drawn = s.drawn := rfl
@[simp] theorem countDown_trace : (s.countDown).trace = s.trace := rfl

/-! ### `enter` -/

@[simp] theorem enter_build (q : SeqState) : (s.enter q).build = s.build := rfl
@[simp] theorem enter_cmd (q : SeqState) : (s.enter q).cmd = s.cmd := rfl
@[simp] theorem enter_seq (q : SeqState) : (s.enter q).seq = q := rfl
@[simp] theorem enter_bte (q : SeqState) : (s.enter q).bte = .pre := rfl
@[simp] theorem enter_dly (q : SeqState) : (s.enter q).dly = s.build.tCsLess1 := rfl
@[simp] theorem enter_cnt (q : SeqState) : (s.enter q).cnt = s.cnt := rfl
@[simp] theorem enter_polls (q : SeqState) : (s.enter q).polls = s.polls := rfl
@[simp] theorem enter_toFlag (q : SeqState) : (s.enter q).toFlag = s.toFlag := rfl
@[simp] theorem enter_rdata (q : SeqState) : (s.enter q).rdata = s.rdata := rfl
@[simp] theorem enter_rspStatus (q : SeqState) : (s.enter q).rspStatus = s.rspStatus := rfl
@[simp] theorem enter_rspData (q : SeqState) : (s.enter q).rspData = s.rspData := rfl
@[simp] theorem enter_result (q : SeqState) : (s.enter q).result = s.result := rfl
@[simp] theorem enter_pins (q : SeqState) : (s.enter q).pins = s.pins := rfl
@[simp] theorem enter_inputs (q : SeqState) : (s.enter q).inputs = s.inputs := rfl
@[simp] theorem enter_drawn (q : SeqState) : (s.enter q).drawn = s.drawn := rfl
@[simp] theorem enter_trace (q : SeqState) : (s.enter q).trace = s.trace := rfl

/-! ### `settle` -/

@[simp] theorem settle_build (q : SeqState) : (s.settle q).build = s.build := rfl
@[simp] theorem settle_cmd (q : SeqState) : (s.settle q).cmd = s.cmd := rfl
@[simp] theorem settle_seq (q : SeqState) : (s.settle q).seq = q := rfl
@[simp] theorem settle_bte (q : SeqState) : (s.settle q).bte = s.bte := rfl
@[simp] theorem settle_dly (q : SeqState) : (s.settle q).dly = s.build.tSettleLess1 := rfl
@[simp] theorem settle_cnt (q : SeqState) : (s.settle q).cnt = s.cnt := rfl
@[simp] theorem settle_polls (q : SeqState) : (s.settle q).polls = s.polls := rfl
@[simp] theorem settle_toFlag (q : SeqState) : (s.settle q).toFlag = s.toFlag := rfl
@[simp] theorem settle_rdata (q : SeqState) : (s.settle q).rdata = s.rdata := rfl
@[simp] theorem settle_rspStatus (q : SeqState) : (s.settle q).rspStatus = s.rspStatus := rfl
@[simp] theorem settle_rspData (q : SeqState) : (s.settle q).rspData = s.rspData := rfl
@[simp] theorem settle_result (q : SeqState) : (s.settle q).result = s.result := rfl
@[simp] theorem settle_pins (q : SeqState) : (s.settle q).pins = s.pins := rfl
@[simp] theorem settle_inputs (q : SeqState) : (s.settle q).inputs = s.inputs := rfl
@[simp] theorem settle_drawn (q : SeqState) : (s.settle q).drawn = s.drawn := rfl
@[simp] theorem settle_trace (q : SeqState) : (s.settle q).trace = s.trace := rfl

/-! ### `accept` -/

@[simp] theorem accept_build (w : CmdWord) : (s.accept w).build = s.build := rfl
@[simp] theorem accept_cmd (w : CmdWord) : (s.accept w).cmd = w := rfl
@[simp] theorem accept_seq (w : CmdWord) : (s.accept w).seq = s.seq := rfl
@[simp] theorem accept_bte (w : CmdWord) : (s.accept w).bte = s.bte := rfl
@[simp] theorem accept_dly (w : CmdWord) : (s.accept w).dly = s.dly := rfl
@[simp] theorem accept_cnt (w : CmdWord) : (s.accept w).cnt = s.cnt := rfl
@[simp] theorem accept_polls (w : CmdWord) : (s.accept w).polls = s.polls := rfl
@[simp] theorem accept_toFlag (w : CmdWord) : (s.accept w).toFlag = s.toFlag := rfl
@[simp] theorem accept_rdata (w : CmdWord) : (s.accept w).rdata = s.rdata := rfl
@[simp] theorem accept_rspStatus (w : CmdWord) : (s.accept w).rspStatus = s.rspStatus := rfl
@[simp] theorem accept_rspData (w : CmdWord) : (s.accept w).rspData = s.rspData := rfl
@[simp] theorem accept_result (w : CmdWord) : (s.accept w).result = s.result := rfl
@[simp] theorem accept_pins (w : CmdWord) : (s.accept w).pins = s.pins := rfl
@[simp] theorem accept_inputs (w : CmdWord) : (s.accept w).inputs = s.inputs := rfl
@[simp] theorem accept_drawn (w : CmdWord) : (s.accept w).drawn = s.drawn := rfl
@[simp] theorem accept_trace (w : CmdWord) : (s.accept w).trace = s.trace := rfl

/-! ### `respond` -/

@[simp] theorem respond_build (st : Status) (d : Byte) : (s.respond st d).build = s.build := rfl
@[simp] theorem respond_cmd (st : Status) (d : Byte) : (s.respond st d).cmd = s.cmd := rfl
@[simp] theorem respond_seq (st : Status) (d : Byte) : (s.respond st d).seq = .resp := rfl
@[simp] theorem respond_bte (st : Status) (d : Byte) : (s.respond st d).bte = s.bte := rfl
@[simp] theorem respond_dly (st : Status) (d : Byte) : (s.respond st d).dly = s.dly := rfl
@[simp] theorem respond_cnt (st : Status) (d : Byte) : (s.respond st d).cnt = s.cnt := rfl
@[simp] theorem respond_polls (st : Status) (d : Byte) : (s.respond st d).polls = s.polls := rfl
@[simp] theorem respond_toFlag (st : Status) (d : Byte) : (s.respond st d).toFlag = s.toFlag := rfl
@[simp] theorem respond_rdata (st : Status) (d : Byte) : (s.respond st d).rdata = s.rdata := rfl
@[simp] theorem respond_rspStatus (st : Status) (d : Byte) : (s.respond st d).rspStatus = st := rfl
@[simp] theorem respond_rspData (st : Status) (d : Byte) : (s.respond st d).rspData = d := rfl
@[simp] theorem respond_result (st : Status) (d : Byte) : (s.respond st d).result = s.result := rfl
@[simp] theorem respond_pins (st : Status) (d : Byte) : (s.respond st d).pins = s.pins := rfl
@[simp] theorem respond_inputs (st : Status) (d : Byte) : (s.respond st d).inputs = s.inputs := rfl
@[simp] theorem respond_drawn (st : Status) (d : Byte) : (s.respond st d).drawn = s.drawn := rfl
@[simp] theorem respond_trace (st : Status) (d : Byte) : (s.respond st d).trace = s.trace := rfl

/-! ### `storeResult` -/

@[simp] theorem storeResult_build : (s.storeResult).build = s.build := rfl
@[simp] theorem storeResult_cmd : (s.storeResult).cmd = s.cmd := rfl
@[simp] theorem storeResult_seq : (s.storeResult).seq = s.seq := rfl
@[simp] theorem storeResult_bte : (s.storeResult).bte = s.bte := rfl
@[simp] theorem storeResult_dly : (s.storeResult).dly = s.dly := rfl
@[simp] theorem storeResult_cnt : (s.storeResult).cnt = s.cnt := rfl
@[simp] theorem storeResult_polls : (s.storeResult).polls = s.polls := rfl
@[simp] theorem storeResult_toFlag : (s.storeResult).toFlag = s.toFlag := rfl
@[simp] theorem storeResult_rdata : (s.storeResult).rdata = s.rdata := rfl
@[simp] theorem storeResult_rspStatus : (s.storeResult).rspStatus = s.rspStatus := rfl
@[simp] theorem storeResult_rspData : (s.storeResult).rspData = s.rspData := rfl
@[simp] theorem storeResult_result : (s.storeResult).result = s.result.set s.cnt.toNat s.rdata s.cnt.isLt := rfl
@[simp] theorem storeResult_pins : (s.storeResult).pins = s.pins := rfl
@[simp] theorem storeResult_inputs : (s.storeResult).inputs = s.inputs := rfl
@[simp] theorem storeResult_drawn : (s.storeResult).drawn = s.drawn := rfl
@[simp] theorem storeResult_trace : (s.storeResult).trace = s.trace := rfl

/-! ### `endHeader` -/

@[simp] theorem endHeader_build (b : Byte) : (s.endHeader b).build = s.build := rfl
@[simp] theorem endHeader_cmd (b : Byte) : (s.endHeader b).cmd = s.cmd := rfl
@[simp] theorem endHeader_seq (b : Byte) : (s.endHeader b).seq = s.seq := rfl
@[simp] theorem endHeader_bte (b : Byte) : (s.endHeader b).bte = .gap := rfl
@[simp] theorem endHeader_dly (b : Byte) : (s.endHeader b).dly = s.dly := rfl
@[simp] theorem endHeader_cnt (b : Byte) : (s.endHeader b).cnt = s.cnt := rfl
@[simp] theorem endHeader_polls (b : Byte) : (s.endHeader b).polls = s.polls := rfl
@[simp] theorem endHeader_toFlag (b : Byte) : (s.endHeader b).toFlag = s.toFlag := rfl
@[simp] theorem endHeader_rdata (b : Byte) : (s.endHeader b).rdata = s.rdata := rfl
@[simp] theorem endHeader_rspStatus (b : Byte) : (s.endHeader b).rspStatus = s.rspStatus := rfl
@[simp] theorem endHeader_rspData (b : Byte) : (s.endHeader b).rspData = s.rspData := rfl
@[simp] theorem endHeader_result (b : Byte) : (s.endHeader b).result = s.result := rfl
@[simp] theorem endHeader_pins (b : Byte) : (s.endHeader b).pins = s.pins := rfl
@[simp] theorem endHeader_inputs (b : Byte) : (s.endHeader b).inputs = s.inputs := rfl
@[simp] theorem endHeader_drawn (b : Byte) : (s.endHeader b).drawn = s.drawn := rfl
@[simp] theorem endHeader_trace (b : Byte) : (s.endHeader b).trace = .x b s.pins.xRx :: s.trace := rfl

/-! ### `endData` -/

@[simp] theorem endData_build : (s.endData).build = s.build := rfl
@[simp] theorem endData_cmd : (s.endData).cmd = s.cmd := rfl
@[simp] theorem endData_seq : (s.endData).seq = s.seq := rfl
@[simp] theorem endData_bte : (s.endData).bte = .hold := rfl
@[simp] theorem endData_dly : (s.endData).dly = s.build.tCsLess1 := rfl
@[simp] theorem endData_cnt : (s.endData).cnt = s.cnt := rfl
@[simp] theorem endData_polls : (s.endData).polls = s.polls := rfl
@[simp] theorem endData_toFlag : (s.endData).toFlag = s.toFlag := rfl
@[simp] theorem endData_rdata : (s.endData).rdata = if s.txn.rw then s.pins.xRx else s.rdata := rfl
@[simp] theorem endData_rspStatus : (s.endData).rspStatus = s.rspStatus := rfl
@[simp] theorem endData_rspData : (s.endData).rspData = s.rspData := rfl
@[simp] theorem endData_result : (s.endData).result = s.result := rfl
@[simp] theorem endData_pins : (s.endData).pins = s.pins := rfl
@[simp] theorem endData_inputs : (s.endData).inputs = s.inputs := rfl
@[simp] theorem endData_drawn : (s.endData).drawn = s.drawn := rfl
@[simp] theorem endData_trace : (s.endData).trace = .x s.txn.secondByte s.pins.xRx :: s.trace := rfl

/-! ### `resetEdge` -/

@[simp] theorem resetEdge_build : (s.resetEdge).build = s.build := rfl
@[simp] theorem resetEdge_cmd : (s.resetEdge).cmd = 0x0000 := rfl
@[simp] theorem resetEdge_seq : (s.resetEdge).seq = .initRst := rfl
@[simp] theorem resetEdge_bte : (s.resetEdge).bte = .pre := rfl
@[simp] theorem resetEdge_dly : (s.resetEdge).dly = s.build.tCsLess1 := rfl
@[simp] theorem resetEdge_cnt : (s.resetEdge).cnt = 0 := rfl
@[simp] theorem resetEdge_polls : (s.resetEdge).polls = 0 := rfl
@[simp] theorem resetEdge_toFlag : (s.resetEdge).toFlag = false := rfl
@[simp] theorem resetEdge_rdata : (s.resetEdge).rdata = 0x00 := rfl
@[simp] theorem resetEdge_rspStatus : (s.resetEdge).rspStatus = .ok := rfl
@[simp] theorem resetEdge_rspData : (s.resetEdge).rspData = 0x00 := rfl
@[simp] theorem resetEdge_result : (s.resetEdge).result = s.result := rfl
@[simp] theorem resetEdge_pins : (s.resetEdge).pins = s.pins := rfl
@[simp] theorem resetEdge_inputs : (s.resetEdge).inputs = s.inputs := rfl
@[simp] theorem resetEdge_drawn : (s.resetEdge).drawn = s.drawn := rfl
@[simp] theorem resetEdge_trace : (s.resetEdge).trace = if s.csN then s.trace else .cs1 :: s.trace := rfl

/-! ### `sample`: only the ports, the list of inputs and the count of draws change -/

@[simp] theorem sample_build : s.sample.build = s.build := by
  unfold sample; split <;> rfl
@[simp] theorem sample_cmd : s.sample.cmd = s.cmd := by
  unfold sample; split <;> rfl
@[simp] theorem sample_seq : s.sample.seq = s.seq := by
  unfold sample; split <;> rfl
@[simp] theorem sample_bte : s.sample.bte = s.bte := by
  unfold sample; split <;> rfl
@[simp] theorem sample_dly : s.sample.dly = s.dly := by
  unfold sample; split <;> rfl
@[simp] theorem sample_cnt : s.sample.cnt = s.cnt := by
  unfold sample; split <;> rfl
@[simp] theorem sample_polls : s.sample.polls = s.polls := by
  unfold sample; split <;> rfl
@[simp] theorem sample_toFlag : s.sample.toFlag = s.toFlag := by
  unfold sample; split <;> rfl
@[simp] theorem sample_rdata : s.sample.rdata = s.rdata := by
  unfold sample; split <;> rfl
@[simp] theorem sample_rspStatus : s.sample.rspStatus = s.rspStatus := by
  unfold sample; split <;> rfl
@[simp] theorem sample_rspData : s.sample.rspData = s.rspData := by
  unfold sample; split <;> rfl
@[simp] theorem sample_result : s.sample.result = s.result := by
  unfold sample; split <;> rfl
@[simp] theorem sample_trace : s.sample.trace = s.trace := by
  unfold sample; split <;> rfl

theorem sample_of_inputs {p : Pins} {ps : List Pins} (h : s.inputs = p :: ps) :
    s.sample = { s with pins := p, inputs := ps } := by
  simp only [sample, h]

theorem sample_of_no_inputs (h : s.inputs = []) :
    s.sample = { s with pins := freePins s.drawn, drawn := s.drawn + 1 } := by
  simp only [sample, h]

/-! ### `recoverBte`: only `bte` and `dly` can change -/

@[simp] theorem recoverBte_build : s.recoverBte.build = s.build := by
  unfold recoverBte; split <;> rfl
@[simp] theorem recoverBte_cmd : s.recoverBte.cmd = s.cmd := by
  unfold recoverBte; split <;> rfl
@[simp] theorem recoverBte_seq : s.recoverBte.seq = s.seq := by
  unfold recoverBte; split <;> rfl
@[simp] theorem recoverBte_cnt : s.recoverBte.cnt = s.cnt := by
  unfold recoverBte; split <;> rfl
@[simp] theorem recoverBte_polls : s.recoverBte.polls = s.polls := by
  unfold recoverBte; split <;> rfl
@[simp] theorem recoverBte_toFlag : s.recoverBte.toFlag = s.toFlag := by
  unfold recoverBte; split <;> rfl
@[simp] theorem recoverBte_rdata : s.recoverBte.rdata = s.rdata := by
  unfold recoverBte; split <;> rfl
@[simp] theorem recoverBte_rspStatus : s.recoverBte.rspStatus = s.rspStatus := by
  unfold recoverBte; split <;> rfl
@[simp] theorem recoverBte_rspData : s.recoverBte.rspData = s.rspData := by
  unfold recoverBte; split <;> rfl
@[simp] theorem recoverBte_result : s.recoverBte.result = s.result := by
  unfold recoverBte; split <;> rfl
@[simp] theorem recoverBte_pins : s.recoverBte.pins = s.pins := by
  unfold recoverBte; split <;> rfl
@[simp] theorem recoverBte_inputs : s.recoverBte.inputs = s.inputs := by
  unfold recoverBte; split <;> rfl
@[simp] theorem recoverBte_drawn : s.recoverBte.drawn = s.drawn := by
  unfold recoverBte; split <;> rfl
@[simp] theorem recoverBte_trace : s.recoverBte.trace = s.trace := by
  unfold recoverBte; split <;> rfl

theorem recoverBte_of_used (h : s.bte ≠ .unused) : s.recoverBte = s := if_neg h

theorem recoverBte_of_unused (h : s.bte = .unused) :
    s.recoverBte = { s with bte := .pre, dly := s.build.tCsLess1 } := if_pos h

/-- After it the engine holds one of the codes 0 to 6. -/
theorem recoverBte_bte_ne : s.recoverBte.bte ≠ .unused := by
  by_cases h : s.bte = .unused
  · rw [recoverBte_of_unused s h]; nofun
  · rwa [recoverBte_of_used s h]

/-! ### `takeResponse`: only `seq` can change -/

theorem takeResponse_of_ready (h : s.pins.rspReady = true) : s.takeResponse = { s with seq := .idle } := by
  simp [takeResponse, h]

theorem takeResponse_of_not_ready (h : s.pins.rspReady = false) : s.takeResponse = s := by
  simp [takeResponse, h]

end Sys2Proof.Machine.State
end

