-- ==== Sys2Proof/Laws/Ops.lean ====
section
/-! SUPPORT. One lemma per shared operation that says what it can do; later proofs cite these instead of unfolding. -/

namespace Sys2Proof.Machine

variable {s : State}

/-! ### Output ports -/

theorem State.csN_eq_false : s.csN = false ↔ s.seq.isTxn = true ∧ s.bte.inWindow = true := by
  simp [State.csN]

theorem State.xReq_eq_true : s.xReq = true ↔ s.seq.isTxn = true ∧ s.bte.exchanging = true := by
  simp [State.xReq]

theorem BteState.exchanging_eq_true {b : BteState} : b.exchanging = true ↔ b = .hdr ∨ b = .data := by
  cases b <;> simp [BteState.exchanging]

theorem BteState.inWindow_of_exchanging {b : BteState} (h : b.exchanging = true) : b.inWindow = true := by
  cases b <;> simp_all [BteState.exchanging, BteState.inWindow]

theorem State.cmdReady_eq_true : s.cmdReady = true ↔ s.seq = .idle := by
  unfold State.cmdReady; cases s.seq <;> simp

theorem State.rspValid_eq_true : s.rspValid = true ↔ s.seq = .resp := by
  unfold State.rspValid; cases s.seq <;> simp

theorem State.xTx_of_hdr (hq : s.seq.isTxn = true) (hb : s.bte = .hdr) : s.xTx = s.txn.headerByte := by
  simp [State.xTx, State.xReq, hq, hb, BteState.exchanging]

theorem State.xTx_of_data (hq : s.seq.isTxn = true) (hb : s.bte = .data) : s.xTx = s.txn.secondByte := by
  simp [State.xTx, State.xReq, hq, hb, BteState.exchanging]

/-! ### The sequencer's decisions -/

/-- The three ends of a poll (R110, R111). -/
theorem State.pollDone_cases (s : State) :
    (levelReached s.rdata = true ∧ s.pollDone = { s with polls := s.pollsNext, cnt := 0 }.enter .stDrain) ∨
    (levelReached s.rdata = false ∧ s.boundHit = true ∧
      s.pollDone = { s with polls := s.pollsNext, toFlag := true }.enter .stDisarm) ∨
    (levelReached s.rdata = false ∧ s.boundHit = false ∧
      s.pollDone = { s with polls := s.pollsNext }.enter .stPoll) := by
  unfold State.pollDone
  cases h : levelReached s.rdata <;> cases h' : s.boundHit <;> simp

/-- The two ends of a dummy write (R105). -/
theorem State.loadDone_cases (s : State) :
    (s.cnt = 24 ∧ s.loadDone = s.enter .stMem) ∨
    (s.cnt ≠ 24 ∧ s.loadDone = { s with cnt := s.cnt + 1 }.enter .stLoad) := by
  unfold State.loadDone
  split
  · exact .inl ⟨‹_›, rfl⟩
  · exact .inr ⟨‹_›, rfl⟩

/-- The two ends of a drain read (R113). -/
theorem State.drainDone_cases (s : State) :
    (s.cnt = 63 ∧ s.drainDone = s.storeResult.enter .stDisarm) ∨
    (s.cnt ≠ 63 ∧ s.drainDone = { s.storeResult with cnt := s.cnt + 1 }.enter .stDrain) := by
  unfold State.drainDone
  split
  · exact .inl ⟨‹_›, rfl⟩
  · exact .inr ⟨‹_›, rfl⟩

/-- The two ends of the disarm write (R114). -/
theorem State.disarmDone_cases (s : State) :
    (s.toFlag = true ∧ s.disarmDone = s.respond .timeout 0x00) ∨
    (s.toFlag = false ∧ s.disarmDone = { s with seq := .stVerify }) := by
  unfold State.disarmDone
  cases h : s.toFlag <;> simp

/-- The comparison is equality of the two buffers (R116). -/
theorem State.passes_eq_true : s.passes = true ↔ s.result = s.build.golden := by
  simp only [State.passes, decide_eq_true_eq]
  constructor
  · exact fun h => Vector.ext fun i hi => h ⟨i, hi⟩
  · intro h i; rw [h]

/-! ### The engine -/

/-- Everything an edge of the engine can do, with its guard (R78 to R85). -/
theorem State.txnEdge_cases (s : State) :
    (s.bte = .pre ∧ s.dly = 0 ∧
      s.txnEdge = { s with bte := .setup, dly := s.build.tCsLess1 }.record .cs0) ∨
    (s.bte = .setup ∧ s.dly = 0 ∧ s.txnEdge = { s with bte := .hdr }) ∨
    (s.bte = .hdr ∧ s.txnEdge = s) ∨
    (s.bte = .gap ∧ s.txnEdge = { s with bte := .data }) ∨
    (s.bte = .data ∧ s.pins.xDone = false ∧ s.txnEdge = s) ∨
    (s.bte = .data ∧ s.pins.xDone = true ∧ s.txnEdge = s.endData) ∨
    (s.bte = .hold ∧ s.dly = 0 ∧ s.txnEdge = { s with bte := .post, dly := s.build.tCsLess1 }.record .cs1) ∨
    (s.bte = .post ∧ s.dly = 0 ∧ s.txnEdge = s.complete) ∨
    ((s.bte = .pre ∨ s.bte = .setup ∨ s.bte = .hold ∨ s.bte = .post) ∧ s.dly ≠ 0 ∧ s.txnEdge = s.countDown) ∨
    (s.bte = .unused ∧ s.txnEdge = { s with bte := .pre, dly := s.build.tCsLess1 }) := by
  unfold State.txnEdge
  cases hb : s.bte <;> by_cases hd : s.dly = 0 <;> cases hx : s.pins.xDone <;> simp [hd, State.recoverBte, hb]

/-- In a transaction state an edge is an edge of the engine (R77). -/
theorem State.edge_of_isTxn (h : s.seq.isTxn = true) : s.edge = s.txnEdge := by
  unfold State.edge
  cases hq : s.seq <;> simp_all [SeqState.isTxn]

/-- At every edge that fetches nothing, `BTE` code 7 recovers, whatever `SEQ` is (R24). -/
theorem State.edge_of_unused (h : s.bte = .unused) : s.edge.bte = .pre ∧ s.edge.dly = s.build.tCsLess1 := by
  unfold State.edge State.txnEdge State.verify State.takeResponse State.recoverBte
  cases s.seq <;> (repeat' split) <;> simp_all

/-! ### Fetching -/

/-- The three things `fetch` can answer, with the condition of each (R17, R81). -/
theorem State.fetch_cases (s : State) :
    (s.seq = .idle ∧ s.pins.cmdValid = true ∧ s.fetch = some (.command s.pins.cmdWord)) ∨
    (s.seq.isTxn = true ∧ s.bte = .hdr ∧ s.pins.xDone = true ∧ s.fetch = some (.header s.txn.headerByte)) ∨
    (¬ (s.seq = .idle ∧ s.pins.cmdValid = true) ∧ ¬ (s.seq.isTxn = true ∧ s.bte = .hdr ∧ s.pins.xDone = true) ∧
      s.fetch = none) := by
  by_cases hi : s.seq = .idle ∧ s.pins.cmdValid = true
  · left
    refine ⟨hi.1, hi.2, ?_⟩
    simp [State.fetch, State.cmdReady_eq_true.2 hi.1, hi.2]
  · right
    have hni : (s.cmdReady && s.pins.cmdValid) = false := by
      cases hc : s.cmdReady
      · rfl
      · simpa using fun hv => hi ⟨State.cmdReady_eq_true.1 hc, hv⟩
    by_cases hh : s.seq.isTxn = true ∧ s.bte = .hdr ∧ s.pins.xDone = true
    · left
      refine ⟨hh.1, hh.2.1, hh.2.2, ?_⟩
      simp [State.fetch, hni, hh.1, hh.2.1, hh.2.2, State.xTx_of_hdr hh.1 hh.2.1]
    · right
      refine ⟨hi, hh, ?_⟩
      have : (s.seq.isTxn && (s.bte == .hdr) && s.pins.xDone) = false := by
        rw [Bool.eq_false_iff]
        simpa [and_assoc] using hh
      simp [State.fetch, hni, this]

/-! ### The sampled edge, one lemma per branch -/

theorem stepSampled_of_rst (h : s.pins.rst = true) : stepSampled s = .next s.resetEdge := by
  simp [stepSampled, h]

theorem stepSampled_of_command (h : s.pins.rst = false) (hq : s.seq = .idle) (hv : s.pins.cmdValid = true) :
    stepSampled s = exec (decodeCommand s.pins.cmdWord) s.recoverBte := by
  simp [stepSampled, h, State.fetch, State.cmdReady_eq_true.2 hq, hv, decode]

theorem stepSampled_of_no_fetch (h : s.pins.rst = false) (hf : s.fetch = none) : stepSampled s = .next s.edge := by
  simp [stepSampled, h, hf]

end Sys2Proof.Machine
end

