-- ==== Sys2Proof/Laws/PerInstr.lean ====
section
/-! SUPPORT. Per instruction: the word of a well-formed instruction has the fixed bits its row of spec/opcode_table.json
gives. -/

namespace Sys2Proof.Laws.TableRow

/-- A row's mask and match, on a command word or a header byte. -/
def Matches : CodeWord → Nat → Nat → Prop
  | .command w, mask, value => w &&& BitVec.ofNat 16 mask = BitVec.ofNat 16 value
  | .header b, mask, value => b &&& BitVec.ofNat 8 mask = BitVec.ofNat 8 value

/-- The mask of an instruction's row. -/
def rowMask : Instr → Nat
  | .writeReg _ _ | .readReg _ _ | .selfTest _ | .illegal _ => 0xC000
  | .spiWrHdr _ | .spiRdHdr _ => 0x81

/-- The match value of an instruction's row. -/
def rowMatch : Instr → Nat
  | .writeReg _ _ => 0x0000
  | .readReg _ _ => 0x4000
  | .selfTest _ => 0x8000
  | .illegal _ => 0xC000
  | .spiWrHdr _ => 0x00
  | .spiRdHdr _ => 0x80

/-- The word of a well-formed instruction matches its own row. -/
def Statement (i : Instr) : Prop := i.wellFormed = true → Matches (encode i) (rowMask i) (rowMatch i)

/-- Masking with 0xC000 keeps bits 15 and 14 alone. -/
theorem and_C000 {w : CmdWord} {hi lo : Bool} (h15 : w.getLsbD 15 = hi) (h14 : w.getLsbD 14 = lo) :
    w &&& 0xC000 = BitVec.ofNat 16 (hi.toNat * 0x8000 + lo.toNat * 0x4000) := by
  subst h15 h14
  apply BitVec.eq_of_getLsbD_eq
  intro i hi
  rw [BitVec.getLsbD_and]
  interval_cases i <;> cases w.getLsbD 15 <;> cases w.getLsbD 14 <;> simp

theorem writeReg (a : Addr) (d : Byte) : Statement (.writeReg a d) := fun _ =>
  and_C000 (hi := false) (lo := false) (by rw [writeRegWord]; simp only [BitVec.getLsbD_append]; rfl)
    (by rw [writeRegWord]; simp only [BitVec.getLsbD_append]; rfl)

theorem readReg (a : Addr) (x : Byte) : Statement (.readReg a x) := fun _ =>
  and_C000 (hi := false) (lo := true) (by rw [readRegWord]; simp only [BitVec.getLsbD_append]; rfl)
    (by rw [readRegWord]; simp only [BitVec.getLsbD_append]; rfl)

theorem selfTest (bound : Bound) : Statement (.selfTest bound) := fun _ =>
  and_C000 (hi := true) (lo := false) (by rw [selfTestWord]; simp only [BitVec.getLsbD_append]; rfl)
    (by rw [selfTestWord]; simp only [BitVec.getLsbD_append]; rfl)

theorem illegal (word : CmdWord) : Statement (.illegal word) := by
  intro h
  rw [Instr.wellFormed, Bool.and_eq_true] at h
  exact and_C000 (hi := true) (lo := true) h.1 h.2

theorem spiWrHdr (a : Addr) : Statement (.spiWrHdr a) := by
  have h : ∀ a : Addr, hdr false a &&& 0x81 = 0x00 := by decide
  exact fun _ => h a

theorem spiRdHdr (a : Addr) : Statement (.spiRdHdr a) := by
  have h : ∀ a : Addr, hdr true a &&& 0x81 = 0x80 := by decide
  exact fun _ => h a

end Sys2Proof.Laws.TableRow
end

