-- ==== Sys2Proof/Laws/Step.lean ====
section
/-! SUPPORT. Everything one step can do, said once, and how steps compose into runs. -/

namespace Sys2Proof.Machine

variable {s t u : State}

/-- The header byte of the current transaction runs as the end of its exchange, write or read. -/
theorem stepSampled_of_header (h : s.pins.rst = false) (hq : s.seq.isTxn = true) (hb : s.bte = .hdr)
    (hx : s.pins.xDone = true) : stepSampled s = .next (s.endHeader s.txn.headerByte) := by
  obtain ⟨hi, -, -⟩ | ⟨-, -, -, hf⟩ | ⟨-, hn, -⟩ := s.fetch_cases
  · simp [hi, SeqState.isTxn] at hq
  · have hu : s.recoverBte = s := s.recoverBte_of_used (by rw [hb]; nofun)
    simp only [stepSampled, h, hf, decode, Txn.headerByte, decodeHeader_hdr, hu]
    cases s.txn <;> rfl
  · exact absurd ⟨hq, hb, hx⟩ hn

/-- Everything an edge can do: reset, accept a command, end a header exchange, or take the machine's own edge. -/
theorem stepSampled_cases (s : State) :
    (s.pins.rst = true ∧ stepSampled s = .next s.resetEdge) ∨
    (s.pins.rst = false ∧ s.seq = .idle ∧ s.pins.cmdValid = true ∧
      stepSampled s = exec (decodeCommand s.pins.cmdWord) s.recoverBte) ∨
    (s.pins.rst = false ∧ s.seq.isTxn = true ∧ s.bte = .hdr ∧ s.pins.xDone = true ∧
      stepSampled s = .next (s.endHeader s.txn.headerByte)) ∨
    (s.pins.rst = false ∧ ¬ (s.seq = .idle ∧ s.pins.cmdValid = true) ∧
      ¬ (s.seq.isTxn = true ∧ s.bte = .hdr ∧ s.pins.xDone = true) ∧ stepSampled s = .next s.edge) := by
  cases hr : s.pins.rst
  · right
    obtain ⟨hi, hv, -⟩ | ⟨hq, hb, hx, -⟩ | ⟨hi, hh, hf⟩ := s.fetch_cases
    · exact .inl ⟨rfl, hi, hv, stepSampled_of_command hr hi hv⟩
    · exact .inr (.inl ⟨rfl, hq, hb, hx, stepSampled_of_header hr hq hb hx⟩)
    · exact .inr (.inr ⟨rfl, hi, hh, stepSampled_of_no_fetch hr hf⟩)
  · exact .inl ⟨rfl, stepSampled_of_rst hr⟩

/-- A step with its port values listed. -/
theorem step_of_inputs {p : Pins} {ps : List Pins} (h : s.inputs = p :: ps) :
    step s = stepSampled { s with pins := p, inputs := ps } := by
  rw [step, s.sample_of_inputs h]

/-! ### Runs -/

theorem runs_zero (s : State) : Runs 0 s s := rfl

theorem Runs.cons {n : Nat} (h : step s = .next t) (hr : Runs n t u) : Runs (n + 1) s u := ⟨t, h, hr⟩

/-- Runs compose. -/
theorem Runs.append {m n : Nat} (h : Runs m s t) (hr : Runs n t u) : Runs (m + n) s u := by
  induction m generalizing s with
  | zero =>
    cases h
    rwa [Nat.zero_add]
  | succ m ih =>
    obtain ⟨v, hv, h⟩ := h
    rw [Nat.succ_add]
    exact ⟨v, hv, ih h⟩

/-- One step of a run, for any machine of the host's interface. -/
theorem core_run_succ (M : Host.Core) {a b : M.State} (n : Nat) (h : M.step a = .next b) :
    M.run (n + 1) a = M.run n b := by
  simp only [Host.Core.run, h]

/-- A run is a run of the host's interface. -/
theorem Runs.core_run {n : Nat} (h : Runs n s u) : Host.Core.run Sys2Proof.core n s = .next u := by
  induction n generalizing s with
  | zero => cases h; rfl
  | succ n ih =>
    obtain ⟨t, ht, h⟩ := h
    exact (core_run_succ Sys2Proof.core n ht).trans (ih h)

end Sys2Proof.Machine
end

