-- ==== Sys2Proof/Tests/Slice0.lean ====
section
/-! SUPPORT. Tests: expected results come from spec/95_test_vectors.md (T<n>, T-CYC) and the rules named; and, for every
obligation that has hypotheses, a concrete input that meets them (`witness_` and the obligation's name). -/

namespace Sys2Proof.Machine.Tests

/-! ### Helpers -/

/-- The vectors' parameters: `T_CS = 3`; two settle cycles, one byte 0xA5 throughout GOLDEN, some SPI_MODE. -/
def build3 : Build where
  tCsLess1 := 2
  tSettleLess1 := 1
  clkHz := 40
  golden := Vector.replicate 64 0xA5
  spiMode := ⟨false, false, .msbFirst, 1⟩

/-- A RAC with the vectors' parameters, in a sequencer state, engine state and delay count, offered port values. -/
def rac (q : SeqState) (b : BteState) (d : Nat) (ps : List Pins) : State :=
  { State.reset with build := build3, seq := q, bte := b, dly := d, inputs := ps }

/-- The reset port at 1, every other port as given. -/
def resetPins : Pins := { donePins 0x77 with rst := true, cmdValid := true, rspReady := true }

/-- The host takes a response. -/
def takePins : Pins := { Pins.low with rspReady := true }

/-- The next state, where a step answers one. -/
def after (s : State) : Option State :=
  match step s with
  | .next t => some t
  | .fault _ => none
  | .refused _ => none

/-- The port values of one transaction whose exchanges complete in their first cycle (L = 4 * T_CS + 3). -/
def serve (b : Build) (r : Byte × Byte) : List Pins :=
  [List.replicate (2 * b.tCs) Pins.low, [], [donePins r.1, Pins.low], [], [donePins r.2],
    List.replicate (2 * b.tCs) Pins.low].flatten

theorem serve_serves (b : Build) (r : Byte × Byte) : ServesTxn b r (serve b r) := by
  refine ⟨List.replicate (2 * b.tCs) Pins.low, [], donePins r.1, Pins.low, [], donePins r.2,
    List.replicate (2 * b.tCs) Pins.low, rfl, by simp, by simp, by simp, rfl, rfl, by simp, rfl, rfl, ?_⟩
  intro p hp
  simp only [serve, List.flatten_cons, List.flatten_nil, List.mem_append, List.mem_replicate, List.mem_cons,
    List.not_mem_nil, or_false, false_or, Pins.low, donePins] at hp
  rcases hp with ⟨-, rfl⟩ | (rfl | rfl) | rfl | ⟨-, rfl⟩ <;> rfl

theorem serveAll_serves (b : Build) (rs : List (Byte × Byte)) : ServesAll b rs (rs.map (serve b)).flatten := by
  induction rs with
  | nil => rfl
  | cons r rs ih => exact ⟨serve b r, (rs.map (serve b)).flatten, rfl, serve_serves b r, ih⟩

theorem waits_low (n : Nat) : Waits n (List.replicate n Pins.low) := by
  refine ⟨by simp, fun p hp => ?_⟩
  rw [(List.mem_replicate.1 hp).2]
  rfl

/-! ### Decoding: words written out bit by bit from R62, R63, R68 and R70 -/

/-- T3: op 00, addr 101010, data 01010101. -/
theorem test_decode_writeReg : decode (.command 0b00_101010_01010101) = .ok (.writeReg 0x2A 0x55) := by decide
/-- T5 with a low byte: op 01, addr 110111, ignored 00001111. -/
theorem test_decode_readReg : decode (.command 0b01_110111_00001111) = .ok (.readReg 0x37 0x0F) := by decide
/-- T10: op 10, bound 1000. -/
theorem test_decode_selfTest : decode (.command 0b10_00001111101000) = .ok (.selfTest 1000) := by decide
/-- T14: op 11. -/
theorem test_decode_illegal : decode (.command 0b11_00000010100101) = .ok (.illegal 0xC0A5) := by decide
/-- T19: mode 0, address 010101, bit 0 clear. -/
theorem test_decode_spiWrHdr : decode (.header 0b0_010101_0) = .ok (.spiWrHdr 0x15) := by decide
/-- T20: mode 1, address 101010, bit 0 clear. -/
theorem test_decode_spiRdHdr : decode (.header 0b1_101010_0) = .ok (.spiRdHdr 0x2A) := by decide
/-- R70: bit 0 set is no header. -/
theorem test_decode_header_bit_zero : decode (.header 0b1_101010_1) = .error .headerBitZeroSet := by decide

/-- T2, T7, T11, T13, T23: the largest operand of each row, encoded. -/
theorem test_encode_largest :
    [Instr.writeReg 0x3F 0xFF, .readReg 0x3F 0xFF, .selfTest 16383, .illegal 0xFFFF, .spiWrHdr 0x3F, .spiRdHdr 0x3F].map encode =
      [.command 0x3FFF, .command 0x7FFF, .command 0xBFFF, .command 0xFFFF, .header 0x7E, .header 0xFE] := by decide

/-- The match value of each row of spec/opcode_table.json. -/
theorem test_decodeTableWord :
    [(16, 0x0000), (16, 0x4000), (16, 0x8000), (16, 0xC000), (8, 0x00), (8, 0x80), (8, 0x81), (24, 0)].map
        (fun p => decodeTableWord p.1 p.2) =
      [some (.writeReg 0 0), some (.readReg 0 0), some (.selfTest 0), some (.illegal 0xC000), some (.spiWrHdr 0),
        some (.spiRdHdr 0), none, none] := by decide

/-! ### WellFormed: the one check, and the assembler's ranges (R75) -/

/-- A word whose op is not 11 is no ILLEGAL. -/
theorem test_illformed_illegal :
    [Instr.illegal 0x3FFF, .illegal 0x7FFF, .illegal 0xBFFF].map Instr.wellFormed = [false, false, false] ∧
      (Instr.illegal 0xC000).wellFormed = true := by decide
/-- "An operand outside its range spells no command". -/
theorem test_illformed_operands :
    [AsmCommand.writeReg (.number 64) 0, .writeReg (.number 0) 256, .readReg (.number 64), .selfTest (some 16384),
      .illegal 0xBFFF, .illegal 0x10000].map AsmCommand.assemble = [none, none, none, none, none, none] := by decide

/-! ### The instructions, one step each -/

/-- T-CYC cycle 0: accepted, `S_HOST`, `B_PRE`, `DLY = 2`. -/
theorem test_writeReg_accepted :
    (after (rac .idle .post 0 [offerPins 0x0A80])).map (fun t => (t.cmd, t.seq, t.bte, t.dly, t.csN)) =
      some (0x0A80, .host, .pre, 2, true) := by decide
/-- T6: the ignored byte is latched; it is not sent (R65, T29). -/
theorem test_readReg_accepted :
    (after (rac .idle .post 0 [offerPins 0x77FF])).map (fun t => (t.cmd, t.seq, t.bte, t.txn)) =
      some (0x77FF, .host, .pre, .regRead 0x37) := by decide
/-- R99: acceptance clears POLLS and TO. -/
theorem test_selfTest_accepted :
    (after { rac .idle .post 0 [offerPins 0x83E8] with polls := 7, toFlag := true, cnt := 63 }).map
        (fun t => (t.seq, t.bte, t.polls, t.toFlag, t.cnt)) = some (.stRst, .pre, 0, false, 63) := by decide
/-- T47, T48. -/
theorem test_illegal_accepted :
    (after (rac .idle .post 0 [offerPins 0xFFFF])).map
        (fun t => (t.rspValid, t.rspStatusPort, t.rspDataPort, t.csN, t.trace)) =
      some (true, 0b11, 0x00, true, []) := by decide
/-- T-CYC cycle 7: `X(0x14, _)`, the byte received discarded. -/
theorem test_spiWrHdr_completes :
    (after { rac .host .hdr 0 [donePins 0x5A] with cmd := 0x0A80, rdata := 0x11 }).map
        (fun t => (t.bte, t.seq, t.trace, t.rdata)) = some (.gap, .host, [.x 0x14 0x5A], 0x11) := by decide
/-- T28: the byte received with the read header is discarded. -/
theorem test_spiRdHdr_completes :
    (after { rac .host .hdr 0 [donePins 0x5A] with cmd := 0x4000, rdata := 0x11 }).map
        (fun t => (t.bte, t.seq, t.trace, t.rdata)) = some (.gap, .host, [.x 0x80 0x5A], 0x11) := by decide

/-! ### The engine -/

/-- T-CYC cycle 3: `CS0`. -/
theorem test_pre_ends :
    (after { rac .host .pre 0 [Pins.low] with cmd := 0x0A80 }).map (fun t => (t.bte, t.dly, t.csN, t.trace)) =
      some (.setup, 2, false, [.cs0]) := by decide
/-- T54: `x_done` in `B_SETUP` is ignored. -/
theorem test_done_ignored_in_setup :
    (after { rac .host .setup 2 [donePins 0x77] with cmd := 0x0A80 }).map (fun t => (t.bte, t.dly, t.trace)) =
      some (.setup, 1, []) := by decide
/-- T25, T-CYC cycle 9: a write's data exchange; RDATA unchanged. -/
theorem test_write_data :
    (after { rac .host .data 0 [donePins 0x34] with cmd := 0x3FFF, rdata := 0x11 }).map
        (fun t => (t.bte, t.dly, t.rdata, t.trace)) = some (.hold, 2, 0x11, [.x 0xFF 0x34]) := by decide
/-- T29: a read's data exchange sends 0x00, never the low byte of the word. -/
theorem test_read_data :
    (after { rac .host .data 0 [donePins 0x3C] with cmd := 0x7FAB }).map (fun t => (t.bte, t.rdata, t.trace)) =
      some (.hold, 0x3C, [.x 0x00 0x3C]) := by decide
/-- T-CYC cycle 12: `CS1`. -/
theorem test_hold_ends :
    (after { rac .host .hold 0 [Pins.low] with cmd := 0x0A80 }).map (fun t => (t.bte, t.dly, t.csN, t.trace)) =
      some (.post, 2, true, [.cs1]) := by decide

/-! ### Responses and reset -/

/-- T-CYC cycle 15: a write answers `(OK, 0x00)`, whatever RDATA holds. -/
theorem test_write_responds :
    (after { rac .host .post 0 [Pins.low] with cmd := 0x0A80, rdata := 0x11 }).map
        (fun t => (t.seq, t.rspStatusPort, t.rspDataPort)) = some (.resp, 0b00, 0x00) := by decide
/-- W2: a read answers the sentinel. -/
theorem test_read_responds :
    (after { rac .host .post 0 [Pins.low] with cmd := 0x7700, rdata := 0xA5 }).map
        (fun t => (t.seq, t.rspStatusPort, t.rspDataPort)) = some (.resp, 0b00, 0xA5) := by decide
/-- T50: taken at the edge with `rsp_ready == 1`; the response registers keep their value (T49). -/
theorem test_response_taken :
    (after { rac .resp .post 0 [takePins] with rspData := 0xA5 }).map (fun t => (t.seq, t.cmdReady, t.rspDataPort)) =
      some (.idle, true, 0xA5) := by decide
/-- T52: reset in `B_GAP`. -/
theorem test_reset_in_gap :
    (after { rac .host .gap 0 [resetPins] with cmd := 0x0A80 }).map
        (fun t => (t.csN, t.xReq, t.seq, t.rspValid, t.trace)) =
      some (true, false, .initRst, false, [.cs1]) := by decide
/-- R24: `BTE` code 7 recovers beside a response taken, a settle wait and the comparison. -/
theorem test_bte_seven_recovers :
    [SeqState.idle, .resp, .initWait, .stVerify].map (fun q => (after (rac q .unused 9 [takePins])).map
        (fun t => (t.seq, t.bte, t.dly))) =
      [some (.idle, .pre, 2), some (.idle, .pre, 2), some (.initWait, .pre, 2), some (.resp, .pre, 2)] := by decide
/-- T53: reset withdraws a response. -/
theorem test_reset_in_resp :
    (after { rac .resp .post 0 [resetPins] with rspStatus := .timeout, rspData := 0xA5 }).map
        (fun t => (t.rspValid, t.rspStatusPort, t.rspDataPort, t.dly)) = some (false, 0b00, 0x00, 2) := by decide

/-! ### The self-test's decisions -/

/-- R105: the 25th dummy write is the one with `CNT == 24`. -/
theorem test_load_counts :
    [23, 24].map (fun n => (after { rac .stLoad .post 0 [Pins.low] with cnt := n }).map (fun t => (t.seq, t.cnt))) =
      [some (.stLoad, 24), some (.stMem, 24)] := by decide

/-- A poll of a `SELF_TEST bound` completes, having read `level`, with `n` polls before it. -/
def polled (bound : Bound) (n : BitVec 14) (level : Byte) : Option (SeqState × BitVec 14 × Bool) :=
  (after { rac .stPoll .post 0 [Pins.low] with cmd := selfTestWord bound, polls := n, rdata := level }).map
    (fun t => (t.seq, t.polls, t.toFlag))

/-- T33, T32, T35, T37, T39, T45 (fourth poll), T44 (last poll), T34 (saturated). -/
theorem test_poll_corners :
    [polled 0 0 0x3F, polled 0 0 0x40, polled 1 0 0x3F, polled 2 1 0x40, polled 3 0 0xFF, polled 5 3 0x00,
      polled 16383 16382 0x3F, polled 0 16383 0x00] =
      [some (.stPoll, 1, false), some (.stDrain, 1, false), some (.stDisarm, 1, true), some (.stDrain, 2, false),
        some (.stDrain, 1, false), some (.stPoll, 4, false), some (.stDisarm, 16383, true),
        some (.stPoll, 16383, false)] := by decide

/-- R113: the 64th byte goes to entry 63 and the disarm follows. -/
theorem test_drain_last :
    (after { rac .stDrain .post 0 [Pins.low] with cnt := 63, rdata := 0x3C }).map
        (fun t => (t.seq, t.cnt, t.result[63], t.result[62])) = some (.stDisarm, 63, 0x3C, 0x00) := by decide
/-- R114. -/
theorem test_disarm :
    [true, false].map (fun b => (after { rac .stDisarm .post 0 [Pins.low] with toFlag := b }).map
        (fun t => (t.seq, t.rspStatusPort))) = [some (.resp, 0b10), some (.stVerify, 0b00)] := by decide

/-- The comparison of a result that is GOLDEN but for one entry. -/
def verified (p : Fin 64) (v : Byte) : Option (SeqState × BitVec 2 × Byte) :=
  (after { rac .stVerify .post 0 [Pins.low] with result := (Vector.replicate 64 0xA5).set p v }).map
    (fun t => (t.seq, t.rspStatusPort, t.rspDataPort))

/-- W5 and the comparison vector after T46: any one changed entry gives MISMATCH. -/
theorem test_verify :
    [verified 0 0xA5, verified 0 0xA4, verified 31 0x00, verified 63 0x25] =
      [some (.resp, 0b00, 0x00), some (.resp, 0b01, 0x00), some (.resp, 0b01, 0x00), some (.resp, 0b01, 0x00)] := by decide

/-! ### From reset: each row's word, placed by `withFetchWord`, is the first instruction to run -/

theorem test_first_command_after_reset :
    [0x0A80, 0x7700, 0x8003, 0xC000].map (fun w => (after (State.reset.withFetchWord 16 w)).map (fun t => (t.cmd, t.seq))) =
      [some (0x0A80, .host), some (0x7700, .host), some (0x8003, .stRst), some (0xC000, .resp)] := by decide
theorem test_first_header_after_reset :
    [0x14, 0xEE].map (fun w => (after (State.reset.withFetchWord 8 w)).map (fun t => (t.bte, t.trace))) =
      [some (.gap, [.x 0x14 0x00]), some (.gap, [.x 0xEE 0x00])] := by decide

/-! ### Witnesses: for each obligation with hypotheses, an input that meets them all; one per clause where it has several -/

theorem witness_EncodedInstructionDecodesToItself : (Instr.illegal 0xC0A5).wellFormed = true := by decide

theorem witness_DecodedWordEncodesBack :
    decode (.command 0x77FF) = .ok (.readReg 0x37 0xFF) ∧ decode (.header 0x92) = .ok (.spiRdHdr 0x09) := by decide

/-- The last word of each row of R63 and the first of the next. -/
theorem witness_OpFieldAloneSelectsTheCommand :
    (0x3FFF : CmdWord) &&& 0xC000 = 0x0000 ∧ (0x4000 : CmdWord) &&& 0xC000 = 0x4000 ∧
      (0x7FFF : CmdWord) &&& 0xC000 = 0x4000 ∧ (0x8000 : CmdWord) &&& 0xC000 = 0x8000 ∧
      (0xBFFF : CmdWord) &&& 0xC000 = 0x8000 ∧ (0xC000 : CmdWord) &&& 0xC000 = 0xC000 := by decide

theorem witness_FrameBytesTellTheTransaction :
    (0x93 : Byte).getLsbD 0 = true ∧ Txn.ofFrame 0x92 0x00 = some (.regRead 0x09) ∧
      Txn.ofFrame 0x12 0xFF = some (.regWrite 0x09 0xFF) := by decide

/-- Each clause of the range test at its last value in range and its first out of it. -/
theorem witness_AssemblerChecksOperandRanges :
    (AsmCommand.writeReg (.number 63) 255).assemble = some (.writeReg 0x3F 0xFF) ∧
      (AsmCommand.writeReg (.number 63) 256).assemble = none ∧
      (AsmCommand.selfTest (some 16383)).assemble = some (.selfTest 16383) ∧
      (AsmCommand.illegal 0xC000).assemble = some (.illegal 0xC000) ∧ (AsmCommand.illegal 0xBFFF).assemble = none := by
  decide

/-- A command word at the handshake; a header byte at the end of its exchange. -/
theorem witness_StepRunsTheFetchedInstruction :
    (rac .idle .post 0 [offerPins 0x83E8]).sample.pins.rst = false ∧
      (rac .idle .post 0 [offerPins 0x83E8]).sample.fetch = some (.command 0x83E8) ∧
      decode (.command 0x83E8) = .ok (.selfTest 1000) ∧
      (rac .stPoll .hdr 0 [donePins 0x11]).sample.pins.rst = false ∧
      (rac .stPoll .hdr 0 [donePins 0x11]).sample.fetch = some (.header 0x94) ∧
      decode (.header 0x94) = .ok (.spiRdHdr 0x0A) := by decide

theorem witness_TransactionSelectorTable :
    SeqState.idle.isTxn = false ∧ SeqState.stVerify.isTxn = false ∧ (SeqState.unused 14).isTxn = false := by decide

theorem witness_ResetEdgeLoadsTheResetValues : (rac .stDrain .data 0 [resetPins]).sample.pins.rst = true := by decide

theorem witness_ResetCutsAnOpenWindow :
    (rac .stDrain .data 0 [resetPins]).csN = false ∧ (rac .stDrain .data 0 [resetPins]).sample.pins.rst = true := by decide

theorem witness_InitSequenceResetsTheDeviceThenIdles :
    let ps := serve build3 (0x11, 0x22)
    let ws := List.replicate 2 Pins.low
    let s := rac .initRst .pre 2 [ps, ws, [offerPins 0x7700]].flatten
    s.seq = .initRst ∧ s.bte = .pre ∧ s.dly = s.build.tCs - 1 ∧ ServesTxn s.build (0x11, 0x22) ps ∧
      Waits s.build.tSettle ws ∧ s.inputs = [ps, ws, [offerPins 0x7700]].flatten :=
  ⟨rfl, rfl, rfl, serve_serves _ _, waits_low 2, rfl⟩

/-- No command, and each value of `op`, at the edge of words where it changes. -/
theorem witness_IdleEdgeAcceptsAndDispatches :
    (rac .idle .post 0 [Pins.low]).bte ≠ .unused ∧ (rac .idle .post 0 [Pins.low]).sample.pins.cmdValid = false ∧
      [0x3FFF, 0x4000, 0x7FFF, 0x8000, 0xBFFF, 0xC000].map
        (fun w => let s := rac .idle .post 0 [offerPins w]
          (s.sample.pins.rst, s.sample.pins.cmdValid, opField s.sample.pins.cmdWord)) =
      [(false, true, 0b00), (false, true, 0b01), (false, true, 0b01), (false, true, 0b10), (false, true, 0b10),
        (false, true, 0b11)] := by decide

theorem witness_WriteRegSendsItsFrameAndRespondsOk :
    let ps := serve build3 (0xFF, 0xEE)
    let s := rac .idle .post 0 (ps ++ [takePins])
    ServesTxn s.build (0xFF, 0xEE) ps ∧ s.inputs = ps ++ [takePins] :=
  ⟨serve_serves _ _, rfl⟩

theorem witness_ReadRegSendsItsFrameAndRespondsTheByteRead :
    let ps := serve build3 (0x5A, 0xA5)
    let s := rac .idle .post 0 (ps ++ [takePins])
    ServesTxn s.build (0x5A, 0xA5) ps ∧ s.inputs = ps ++ [takePins] :=
  ⟨serve_serves _ _, rfl⟩

theorem witness_ReservedWordRespondsIllegalWithoutBusActivity :
    let s := rac .idle .post 0 [offerPins 0xC0A5]
    (Instr.illegal 0xC0A5).wellFormed = true ∧ s.seq = .idle ∧ s.bte ≠ .unused ∧ s.sample.pins.rst = false ∧
      s.sample.pins.cmdValid = true ∧ s.sample.pins.cmdWord.getLsbD 15 = true ∧
      s.sample.pins.cmdWord.getLsbD 14 = true := by decide

/-- Each instruction of the frame statement answers a next state. -/
theorem witness_InstructionFrames (s : State) :
    (∃ t, exec (.writeReg 0x0A 0x80) s = .next t) ∧ (∃ t, exec (.readReg 0x37 0x00) s = .next t) ∧
      (∃ t, exec (.selfTest 3) s = .next t) ∧ (∃ t, exec (.illegal 0xC000) s = .next t) ∧
      (∃ t, exec (.spiWrHdr 0x0A) s = .next t) ∧ (∃ t, exec (.spiRdHdr 0x37) s = .next t) :=
  ⟨⟨_, rfl⟩, ⟨_, rfl⟩, ⟨_, rfl⟩, ⟨_, rfl⟩, ⟨_, rfl⟩, ⟨_, rfl⟩⟩

theorem witness_HeaderExchangeCompletesInTheGap :
    let s := rac .stPoll .hdr 0 [donePins 0x11]
    s.seq.isTxn = true ∧ s.bte = .hdr ∧ s.sample.pins.rst = false ∧ s.sample.pins.xDone = true := by decide

theorem witness_TransactionRunsOnceToItsCompletionEdge :
    let ps := serve build3 (0x00, 0x40)
    let s := rac .stPoll .pre 2 (ps ++ [Pins.low])
    s.seq.isTxn = true ∧ s.bte = .pre ∧ s.dly = s.build.tCs - 1 ∧ ServesTxn s.build (0x00, 0x40) ps ∧
      s.inputs = ps ++ [Pins.low] :=
  ⟨rfl, rfl, rfl, serve_serves _ _, rfl⟩

/-- Both clauses: before the window's exchanges, and after them. -/
theorem witness_SettleDelaysBracketEveryWindow (b : BteState) (h : b = .pre ∨ b = .hold) :
    let ws := List.replicate 6 Pins.low
    let s := rac .stLoad b 2 (ws ++ [])
    s.seq.isTxn = true ∧ s.dly = s.build.tCs - 1 ∧ Waits (2 * s.build.tCs) ws ∧ s.inputs = ws ++ [] ∧
      (s.bte = .pre ∨ s.bte = .hold) :=
  ⟨rfl, rfl, waits_low 6, rfl, h⟩

/-- Both clauses: the init sequence's settle, and the self-test's. -/
theorem witness_SoftResetSettleLastsTSettle (q : SeqState) (h : q = .initWait ∨ q = .stWait) :
    let ws := List.replicate 2 Pins.low
    let s := rac q .post 1 (ws ++ [])
    (s.seq = .initWait ∨ s.seq = .stWait) ∧ s.bte ≠ .unused ∧ s.dly = s.build.tSettle - 1 ∧ Waits s.build.tSettle ws ∧
      s.inputs = ws ++ [] :=
  ⟨h, nofun, rfl, waits_low 2, rfl⟩

/-- Both clauses, in both exchanges of a window. -/
theorem witness_ExchangeIsHeldUntilDoneThenReleased :
    [BteState.hdr, .data].map (fun b => ((rac .stLoad b 0 [Pins.low]).xReq, (rac .stLoad b 0 [Pins.low]).sample.pins.rst,
        (rac .stLoad b 0 [Pins.low]).sample.pins.xDone, (rac .stLoad b 0 [donePins 1]).sample.pins.xDone)) =
      [(true, false, false, true), (true, false, false, true)] := by decide

/-- The data exchange of a read, and one state where the byte reaches no register. -/
theorem witness_ReceivedByteReachesOnlyReadData :
    let s := rac .stDrain .data 0 []
    let w := rac .stLoad .data 0 []
    s.seq.isTxn = true ∧ s.bte = .data ∧ s.txn.rw = true ∧ (donePins 0x3C).rst = false ∧ (donePins 0x3C).xDone = true ∧
      ¬ (w.seq.isTxn = true ∧ w.bte = .data ∧ w.txn.rw = true) := by decide

/-- In the data exchange, two offers that differ in the command and response ports. -/
theorem witness_EachInputIsReadInOneStateOnly :
    let s := rac .stDrain .data 0 []
    let p := donePins 0x3C
    let q := { donePins 0x3C with cmdValid := true, cmdWord := 0xC000, rspReady := true }
    p ≠ q ∧ p.rst = q.rst ∧
      (p.rst = false → s.cmdReady = true → p.cmdValid = q.cmdValid ∧ (p.cmdValid = true → p.cmdWord = q.cmdWord)) ∧
      (p.rst = false → s.rspValid = true → p.rspReady = q.rspReady) ∧
      (p.rst = false → s.xReq = true → p.xDone = q.xDone ∧ (p.xDone = true → p.xRx = q.xRx)) := by decide

theorem witness_SilentPeripheralHoldsTheExchange :
    let ps := List.replicate 9 Pins.low
    let s := rac .host .hdr 0 (ps ++ [donePins 0x00])
    s.xReq = true ∧ (∀ p ∈ ps, p.rst = false ∧ p.xDone = false) ∧ s.inputs = ps ++ [donePins 0x00] := by decide

theorem witness_ResponseIsTakenOrHeld :
    let s := rac .resp .post 0 [takePins]
    let w := rac .resp .post 0 [Pins.low]
    s.seq = .resp ∧ s.bte ≠ .unused ∧ s.sample.pins.rst = false ∧ s.sample.pins.rspReady = true ∧
      w.seq = .resp ∧ w.bte ≠ .unused ∧ w.sample.pins.rst = false ∧ w.sample.pins.rspReady = false := by decide

theorem witness_UntakenResponseIsHeldForEver :
    let ps := List.replicate 9 (offerPins 0x7700)
    let s := rac .resp .post 0 (ps ++ [takePins])
    s.rspValid = true ∧ s.bte ≠ .unused ∧ (∀ p ∈ ps, p.rst = false ∧ p.rspReady = false) ∧ s.inputs = ps ++ [takePins] := by decide

/-- A run without end: a response taken at the first edge, `rsp_ready` at 1 ever after and no command offered. -/
def taken : Nat → State
  | 0 => rac .resp .post 0 []
  | _ + 1 => { rac .idle .post 0 [] with pins := takePins }

theorem taken_drives : Drives (fun _ => takePins) taken
  | 0 => rfl
  | _ + 1 => rfl

theorem witness_FairHostTakesEveryResponse :
    Drives (fun _ => takePins) taken ∧ HostTakesResponses (fun _ => takePins) taken ∧ takePins.rst = false ∧
      (taken 0).rspValid = true :=
  ⟨taken_drives, fun n _ => ⟨n, le_rfl, .inr rfl⟩, rfl, rfl⟩

/-- A run without end: the data exchange of a write completed at the first edge, then the window closed, the response offered and
never taken. -/
def written : Nat → State
  | 0 => rac .host .data 0 []
  | 1 => { rac .host .hold 2 [] with pins := donePins 0x34, trace := [.x 0x00 0x34] }
  | 2 => { rac .host .hold 1 [] with pins := donePins 0x34, trace := [.x 0x00 0x34] }
  | 3 => { rac .host .hold 0 [] with pins := donePins 0x34, trace := [.x 0x00 0x34] }
  | 4 => { rac .host .post 2 [] with pins := donePins 0x34, trace := [.cs1, .x 0x00 0x34] }
  | 5 => { rac .host .post 1 [] with pins := donePins 0x34, trace := [.cs1, .x 0x00 0x34] }
  | 6 => { rac .host .post 0 [] with pins := donePins 0x34, trace := [.cs1, .x 0x00 0x34] }
  | _ + 7 => { rac .resp .post 0 [] with pins := donePins 0x34, trace := [.cs1, .x 0x00 0x34] }

theorem written_drives : Drives (fun _ => donePins 0x34) written
  | 0 => rfl
  | 1 => rfl
  | 2 => rfl
  | 3 => rfl
  | 4 => rfl
  | 5 => rfl
  | 6 => rfl
  | _ + 7 => rfl

theorem witness_FairPeripheralCompletesEveryExchange :
    Drives (fun _ => donePins 0x34) written ∧ PeripheralCompletes (fun _ => donePins 0x34) written ∧
      (donePins 0x34).rst = false ∧ (written 0).xReq = true :=
  ⟨written_drives, fun n _ => ⟨n, le_rfl, .inr rfl⟩, rfl, rfl⟩

/-- A state from which a response begins, for each of its four places. -/
def responding : List State :=
  [rac .idle .post 0 [offerPins 0xFFFF], { rac .host .post 0 [Pins.low] with cmd := 0x7700, rdata := 0xA5 },
    { rac .stDisarm .post 0 [Pins.low] with toFlag := true }, rac .stVerify .post 0 [Pins.low]]

theorem witness_ResponsesBeginAfterTheLastWindowCloses :
    ∀ s ∈ responding, s.seq ≠ .resp ∧ (after s).map State.seq = some .resp := by decide

theorem witness_GoldenAndParametersNeverChange :
    (after (rac .stDrain .data 0 [resetPins])).isSome = true := by decide

theorem witness_ResponseRegistersChangeOnlyByRespond :
    let s := rac .idle .post 0 [offerPins 0xFFFF]
    s.sample.pins.rst = false ∧ (after s).map State.rspStatus = some .illegal ∧ s.rspStatus = .ok := by decide

/-- An unused `SEQ` code, and `BTE` code 7 in every other kind of sequencer state, a settle wait with DLY 0 and with DLY not 0. -/
theorem witness_UnusedCodesRecover :
    ((rac (.unused 14) .hold 5 [Pins.low]).sample.pins.rst = false ∧ (rac (.unused 14) .hold 5 [Pins.low]).seq = .unused 14) ∧
      ∀ q ∈ [SeqState.stSeed, .idle, .resp, .stVerify, .initWait, .stWait], ∀ d ∈ [0, 1],
        (rac q .unused d [Pins.low]).sample.pins.rst = false ∧ (rac q .unused d [Pins.low]).bte = .unused ∧
          (rac q .unused d [Pins.low]).seq = q ∧ (rac q .unused d [Pins.low]).dly = d := by decide

theorem witness_FixedStepsFollowInOrder :
    ∀ q ∈ [SeqState.stRst, .stWait, .stFlush, .stMem, .stArm, .stSeed, .stCalc],
      (rac q .post 0 [Pins.low]).seq = q ∧ (rac q .post 0 [Pins.low]).bte = .post ∧ (rac q .post 0 [Pins.low]).dly = 0 ∧
        (rac q .post 0 [Pins.low]).sample.pins.rst = false := by decide

theorem witness_LoadWritesExactlyTwentyFiveBytes :
    let rs := List.replicate 25 ((0x11, 0x22) : Byte × Byte)
    let ps := (rs.map (serve build3)).flatten
    let s := rac .stLoad .pre 2 (ps ++ [])
    s.seq = .stLoad ∧ s.bte = .pre ∧ s.dly = s.build.tCs - 1 ∧ s.cnt = 0 ∧ rs.length = 25 ∧ ServesAll s.build rs ps ∧
      s.inputs = ps ++ [] :=
  ⟨rfl, rfl, rfl, rfl, rfl, serveAll_serves _ _, rfl⟩

/-- The three clauses at their boundary values: level 64 at the bound, level 63 at the bound, level 63 before it, and level 63
with no bound. -/
theorem witness_PollDrainsThenTimesOutThenRepeats :
    let s := fun (b : Bound) (n : BitVec 14) (v : Byte) =>
      { rac .stPoll .post 0 [Pins.low] with cmd := selfTestWord b, polls := n, rdata := v }
    let p := fun (n : BitVec 14) => BitVec.ofNat 14 (min (n.toNat + 1) 16383)
    64 ≤ (s 2 1 0x40).rdata.toNat ∧
      ((s 2 1 0x3F).rdata.toNat < 64 ∧ (s 2 1 0x3F).cmd.extractLsb' 0 14 ≠ 0 ∧ p 1 = (s 2 1 0x3F).cmd.extractLsb' 0 14) ∧
      ((s 2 0 0x3F).rdata.toNat < 64 ∧ p 0 ≠ (s 2 0 0x3F).cmd.extractLsb' 0 14) ∧
      ((s 0 16383 0x3F).rdata.toNat < 64 ∧ (s 0 16383 0x3F).cmd.extractLsb' 0 14 = 0) ∧
      (s 2 1 0x40).seq = .stPoll ∧ (s 2 1 0x40).bte = .post ∧ (s 2 1 0x40).dly = 0 ∧
      (s 2 1 0x40).sample.pins.rst = false := by decide

/-- Poll bytes below 64. -/
theorem polls_low : ∀ r ∈ ([(0x00, 0x3F), (0xFF, 0x00)] : List (Byte × Byte)), r.2.toNat < 64 := by simp

theorem witness_UnboundedPollingNeverEnds :
    let rs : List (Byte × Byte) := [(0x00, 0x3F), (0xFF, 0x00)]
    let ps := (rs.map (serve build3)).flatten
    let s := { rac .stPoll .pre 2 (ps ++ []) with cmd := selfTestWord 0 }
    s.seq = .stPoll ∧ s.bte = .pre ∧ s.dly = s.build.tCs - 1 ∧ s.bound = 0 ∧ (∀ r ∈ rs, r.2.toNat < 64) ∧
      ServesAll s.build rs ps ∧ s.inputs = ps ++ [] :=
  ⟨rfl, rfl, rfl, rfl, polls_low, serveAll_serves _ _, rfl⟩

theorem witness_DrainFillsTheResultInOrder :
    let rs := List.replicate 64 ((0x11, 0x22) : Byte × Byte)
    let ps := (rs.map (serve build3)).flatten
    let s := rac .stDrain .pre 2 (ps ++ [])
    s.seq = .stDrain ∧ s.bte = .pre ∧ s.dly = s.build.tCs - 1 ∧ s.cnt = 0 ∧ rs.length = 64 ∧ ServesAll s.build rs ps ∧
      s.inputs = ps ++ [] :=
  ⟨rfl, rfl, rfl, rfl, rfl, serveAll_serves _ _, rfl⟩

theorem witness_DisarmTimesOutOrCompares (b : Bool) :
    let s := { rac .stDisarm .post 0 [Pins.low] with toFlag := b }
    s.seq = .stDisarm ∧ s.bte = .post ∧ s.dly = 0 ∧ s.sample.pins.rst = false ∧ s.toFlag = b :=
  ⟨rfl, rfl, rfl, rfl, rfl⟩

/-- Every byte equal; the last byte alone different. -/
theorem witness_VerifyIsEqualityOfAllSixtyFourBytes :
    let s := { rac .stVerify .post 0 [Pins.low] with result := Vector.replicate 64 0xA5 }
    let w := { rac .stVerify .post 0 [Pins.low] with result := (Vector.replicate 64 0xA5).set 63 0x25 }
    s.seq = .stVerify ∧ s.bte ≠ .unused ∧ s.sample.pins.rst = false ∧ (∀ i : Fin 64, s.result[i] = s.build.golden[i]) ∧
      w.seq = .stVerify ∧ w.bte ≠ .unused ∧ w.sample.pins.rst = false ∧ w.result[(63 : Fin 64)] ≠ w.build.golden[(63 : Fin 64)] := by decide

/-- `SELF_TEST 3` whose third poll reads 64, at its bound, and `SELF_TEST 0` with the same polls, with any byte read 64 times: 0xA5, GOLDEN throughout, meets
the OK clause, every other byte the MISMATCH clause. -/
theorem witness_SelfTestComparesTheDrainedBytes (b : Bound) (hb : b = 0 ∨ b = 3) (v : Byte) :
    let r0 : Byte × Byte := (0x00, 0x00)
    let setup := List.replicate 30 r0
    let polls : List (Byte × Byte) := [(0x00, 0x3F), (0xFF, 0x00)]
    let last : Byte × Byte := (0x00, 0x40)
    let drain := List.replicate 64 ((0x00, v) : Byte × Byte)
    let p0 := serve build3 r0
    let ws := List.replicate 2 Pins.low
    let p1 := ([setup, polls, [last], drain, [r0]].flatten.map (serve build3)).flatten
    let s := rac .idle .post 0 [p0, ws, p1, [Pins.low], [takePins]].flatten
    ServesTxn s.build r0 p0 ∧ Waits s.build.tSettle ws ∧ setup.length = 30 ∧ (∀ r ∈ polls, r.2.toNat < 64) ∧
      64 ≤ last.2.toNat ∧ (b = 0 ∨ polls.length + 1 ≤ b.toNat) ∧ drain.length = 64 ∧
      ServesAll s.build [setup, polls, [last], drain, [r0]].flatten p1 ∧ Pins.low.rst = false ∧
      s.inputs = [p0, ws, p1, [Pins.low], [takePins]].flatten ∧
      (v = 0xA5 → ∀ i : Fin 64, (drain.map Prod.snd)[i]? = some s.build.golden[i]) ∧
      (v ≠ 0xA5 → ∃ i : Fin 64, (drain.map Prod.snd)[i]? ≠ some s.build.golden[i]) := by
  refine ⟨serve_serves _ _, waits_low 2, rfl, polls_low, by decide, hb.imp_right (by rintro rfl; decide), rfl,
    serveAll_serves _ _, rfl, rfl, ?_, ?_⟩
  · rintro rfl i
    simp only [List.map_replicate, rac, build3, Fin.getElem?_fin, List.getElem?_replicate, Fin.getElem_fin,
      Vector.getElem_replicate, i.isLt, if_true]
  · intro h
    exact ⟨0, fun e => h (Option.some.inj e)⟩

/-- `SELF_TEST 2` whose two polls read 63 and 0. -/
theorem witness_SelfTestTimesOutAtItsBound :
    let r0 : Byte × Byte := (0x00, 0x00)
    let setup := List.replicate 30 r0
    let polls : List (Byte × Byte) := [(0x00, 0x3F), (0xFF, 0x00)]
    let p0 := serve build3 r0
    let ws := List.replicate 2 Pins.low
    let p1 := ([setup, polls, [r0]].flatten.map (serve build3)).flatten
    let s := rac .idle .post 0 [p0, ws, p1, [takePins]].flatten
    ServesTxn s.build r0 p0 ∧ Waits s.build.tSettle ws ∧ setup.length = 30 ∧ (∀ r ∈ polls, r.2.toNat < 64) ∧
      (2 : Bound) ≠ 0 ∧ polls.length = (2 : Bound).toNat ∧ ServesAll s.build [setup, polls, [r0]].flatten p1 ∧
      s.inputs = [p0, ws, p1, [takePins]].flatten :=
  ⟨serve_serves _ _, waits_low 2, rfl, polls_low, by decide, rfl, serveAll_serves _ _, rfl⟩

/-- A window with its header exchange made, about to make its second. -/
theorem witness_StepKeepsTheTraceBracketed :
    let s := { rac .stPoll .data 0 [donePins 0x40] with trace := [.x 0x94 0x00, .cs0] }
    Bracketed s ∧ (after s).isSome = true := by
  refine ⟨?_, by decide⟩
  unfold Bracketed
  decide

theorem witness_UninterruptedWindowsHoldTwoExchanges :
    let s := { rac .stPoll .hold 0 [Pins.low] with trace := [.x 0x00 0x40, .x 0x94 0x00, .cs0] }
    Bracketed s ∧ s.sample.pins.rst = false ∧ s.csN = false ∧ (after s).map State.csN = some true := by
  refine ⟨?_, by decide⟩
  unfold Bracketed
  decide

/-- The last poll before a bound. -/
theorem witness_StepKeepsTheSequencerInvariant :
    let s := { rac .stPoll .post 0 [Pins.low] with cmd := selfTestWord 3, polls := 2 }
    SequencerInv s ∧ (after s).isSome = true := by
  refine ⟨⟨?_, ?_, ?_, ?_, ?_, ?_, ?_, ?_, ?_, ?_⟩, by decide⟩
  · intro k h; cases h
  · decide
  · exact Nat.zero_le _
  · intro h; cases h
  · intro _; decide
  · intro h; cases h
  · intro h; cases h
  · intro _ _; decide
  · intro _ _; decide
  · intro _ h; cases h

theorem witness_DelayCounterFitsItsWidth :
    let s := rac .stWait .post 0 [Pins.low]
    s.dly < 2 ^ s.build.wDly ∧ (after s).map State.dly = some 2 :=
  ⟨Nat.pos_of_ne_zero (by simp [rac]), by decide⟩

end Sys2Proof.Machine.Tests
end

section
/-! What the output ports are (spec/10_state.md R34 to R38). -/

namespace Sys2Proof.Machine

theorem BteState.inWindow_eq_true {b : BteState} :
    b.inWindow = true ↔ b = .setup ∨ b = .hdr ∨ b = .gap ∨ b = .data ∨ b = .hold := by
  cases b <;> simp [BteState.inWindow]

/-- A read sends the dummy byte (R36, R83). -/
theorem Txn.secondByte_of_rw {t : Txn} (h : t.rw = true) : t.secondByte = 0x00 := by
  cases t with
  | regWrite a d => simp [Txn.rw] at h
  | regRead a => rfl

theorem State.xTx_of_not_xReq {s : State} (h : s.xReq ≠ true) : s.xTx = 0x00 := if_neg h

/-- The byte sent in each exchange, and none outside the two (R36). -/
theorem State.xTx_eq (s : State) :
    s.xTx = (if s.xReq = true ∧ s.bte = .hdr then hdr s.txn.rw s.txn.addr
      else if s.xReq = true ∧ s.bte = .data then (if s.txn.rw then 0x00 else s.txn.secondByte) else 0x00) := by
  by_cases hr : s.xReq = true
  · obtain ⟨hq, he⟩ := State.xReq_eq_true.1 hr
    obtain hb | hb := BteState.exchanging_eq_true.1 he
    · simp [State.xTx_of_hdr hq hb, hr, hb, Txn.headerByte]
    · cases hw : s.txn.rw
      · simp [State.xTx_of_data hq hb, hr, hb]
      · simp [State.xTx_of_data hq hb, hr, hb, Txn.secondByte_of_rw hw]
  · simp [State.xTx_of_not_xReq hr, hr]

/-- Settles O14, port by port. -/
theorem outputPortsFollowTheRegisters : Obligations.OutputPortsFollowTheRegisters := by
  intro s
  refine ⟨?csN, ?xReq, s.xTx_eq, State.cmdReady_eq_true, State.rspValid_eq_true, rfl, rfl⟩
  case csN => rw [State.csN_eq_false, BteState.inWindow_eq_true]
  case xReq => rw [State.xReq_eq_true, BteState.exchanging_eq_true]

end Sys2Proof.Machine
end

section
/-! No operation, edge or instruction writes GOLDEN or another build parameter (spec/00_scope.md R8, spec/10_state.md R32). -/

namespace Sys2Proof.Machine

namespace State

variable (s : State)

/-! ### The sequencer's actions -/

@[simp] theorem loadDone_build : s.loadDone.build = s.build := by
  obtain ⟨-, h⟩ | ⟨-, h⟩ := s.loadDone_cases <;> simp [h]

@[simp] theorem pollDone_build : s.pollDone.build = s.build := by
  obtain ⟨-, h⟩ | ⟨-, -, h⟩ | ⟨-, -, h⟩ := s.pollDone_cases <;> simp [h]

@[simp] theorem drainDone_build : s.drainDone.build = s.build := by
  obtain ⟨-, h⟩ | ⟨-, h⟩ := s.drainDone_cases <;> simp [h]

@[simp] theorem disarmDone_build : s.disarmDone.build = s.build := by
  obtain ⟨-, h⟩ | ⟨-, h⟩ := s.disarmDone_cases <;> simp [h]

@[simp] theorem hostDone_build : s.hostDone.build = s.build := respond_build ..

@[simp] theorem verify_build : s.verify.build = s.build := respond_build ..

@[simp] theorem takeResponse_build : s.takeResponse.build = s.build := by
  cases h : s.pins.rspReady
  · rw [takeResponse_of_not_ready s h]
  · rw [takeResponse_of_ready s h]

@[simp] theorem complete_build : s.complete.build = s.build := by
  unfold complete
  cases s.seq <;> simp

/-! ### The machine's own edges -/

@[simp] theorem txnEdge_build : s.txnEdge.build = s.build := by
  obtain ⟨-, -, h⟩ | ⟨-, -, h⟩ | ⟨-, h⟩ | ⟨-, h⟩ | ⟨-, -, h⟩ | ⟨-, -, h⟩ | ⟨-, -, h⟩ | ⟨-, -, h⟩ | ⟨-, -, h⟩ | ⟨-, h⟩ :=
    s.txnEdge_cases <;> simp [h]

@[simp] theorem edge_build : s.edge.build = s.build := by
  unfold edge
  cases s.seq <;> simp [apply_ite State.build]

end State

/-- An instruction's meaning is made of operations that keep the parameters. -/
theorem exec_build {i : Instr} {s t : State} (h : exec i s = .next t) : t.build = s.build := by
  cases i <;> cases h <;> rfl

theorem stepSampled_build {s t : State} (h : stepSampled s = .next t) : t.build = s.build := by
  obtain ⟨-, he⟩ | ⟨-, -, -, he⟩ | ⟨-, -, -, -, he⟩ | ⟨-, -, -, he⟩ := stepSampled_cases s <;> rw [he] at h
  case inr.inl => rw [exec_build h, State.recoverBte_build]
  all_goals cases h; simp

/-- Settles O41: the ports are sampled and then one edge is taken, and neither writes the parameters. -/
theorem goldenAndParametersNeverChange : Obligations.GoldenAndParametersNeverChange := by
  intro s t h
  rw [stepSampled_build h, State.sample_build]

end Sys2Proof.Machine
end

section
/-! The header byte as arithmetic on the logical address, and the masks of the source around it (spec/30_encoding.md R68, R69). -/

namespace Sys2Proof

/-! ### The header byte's value (R68) -/

/-- A write's mode bit is 0, so its header byte is twice the address. -/
theorem toNat_hdr_false (a : Addr) : (hdr false a).toNat = 2 * a.toNat := by
  rw [hdr, BitVec.toNat_append, BitVec.toNat_append]
  simp [Nat.shiftLeft_eq, Nat.mul_comm]

theorem hdr_false_eq_shift (a : Addr) : hdr false a = a.setWidth 8 <<< 1 := by
  have ha : a.toNat < 64 := a.isLt
  apply BitVec.eq_of_toNat_eq
  rw [toNat_hdr_false, BitVec.toNat_shiftLeft, BitVec.toNat_setWidth, Nat.shiftLeft_eq]
  omega

theorem hdr_false_toNat_lt (a : Addr) : (hdr false a).toNat < 128 := by
  have ha : a.toNat < 64 := a.isLt
  rw [toNat_hdr_false]
  omega

/-- A read's header byte is the write's with the mode bit set: field by field, `0x80` is `{1, 0, 0}`. -/
theorem or_hdr_false (a : Addr) : 0x80 ||| hdr false a = hdr true a :=
  calc (1#1 ++ 0#6 ++ 0#1) ||| (0#1 ++ a ++ 0#1)
      = (1#1 ||| 0#1) ++ (0#6 ||| a) ++ (0#1 ||| 0#1) := by simp only [BitVec.or_append]
    _ = hdr true a := by rw [BitVec.zero_or]; rfl

/-! ### The masks of the source (R69) -/

/-- `0x7E` is the mask of the address field alone, `{0, 111111, 0}`. -/
theorem hdr_false_and_addressMask (a : Addr) : hdr false a &&& 0x7E = hdr false a :=
  calc (0#1 ++ a ++ 0#1) &&& (0#1 ++ BitVec.allOnes 6 ++ 0#1)
      = (0#1 &&& 0#1) ++ (a &&& BitVec.allOnes 6) ++ (0#1 &&& 0#1) := by simp only [BitVec.and_append]
    _ = hdr false a := by rw [BitVec.and_allOnes]; rfl

/-- A mask that keeps the address field, whatever else it keeps, leaves a write's header byte as it is. -/
theorem hdr_false_and_mask (a : Addr) {m : Byte} (hm : 0x7E &&& m = 0x7E) : hdr false a &&& m = hdr false a :=
  calc hdr false a &&& m
      = hdr false a &&& (0x7E &&& m) := by rw [← BitVec.and_assoc, hdr_false_and_addressMask]
    _ = hdr false a := by rw [hm, hdr_false_and_addressMask]

/-- Settles O5: the two formulas are R68's, and the layout is what the decoder's support lemmas say of `hdr`. -/
theorem headerIsModeBitAddressZero : Obligations.HeaderIsModeBitAddressZero := by
  intro a
  refine ⟨hdr_false_eq_shift a, ?read, fun rw => ⟨hdr_bit_zero rw a, hdr_mode_bit rw a, hdrAddr_hdr rw a⟩⟩
  case read =>
    rw [← hdr_false_eq_shift]
    exact (or_hdr_false a).symm

/-- Settles O6: the shifted address is a write's header byte, which each mask of the source leaves as it is. -/
theorem maskedHeaderFormulasAgree : Obligations.MaskedHeaderFormulasAgree := by
  intro a v
  have hv : v = hdr false a := (hdr_false_eq_shift a).symm
  have h7F : hdr false a &&& 0x7F = hdr false a := hdr_false_and_mask a (by decide)
  have hFE : hdr false a &&& 0xFE = hdr false a := hdr_false_and_mask a (by decide)
  have h7E : hdr false a &&& 0x7E = hdr false a := hdr_false_and_addressMask a
  rw [hv, h7F, hFE, h7E]
  exact ⟨hdr_bit_zero false a, hdr_false_toNat_lt a, rfl, rfl, rfl, rfl, rfl, or_hdr_false a, or_hdr_false a⟩

end Sys2Proof
end

section
/-! What the ports sampled at an edge can change: every operation commutes with a change of ports that it does not read, and so does
a step (spec/60_exceptions.md R134, spec/40_bus_transactions.md R88). -/

namespace Sys2Proof.Machine

/-- The same registers and trace, with `p` on the input ports and `ps` still to come. -/
def State.withPorts (s : State) (p : Pins) (ps : List Pins) : State := { s with pins := p, inputs := ps }

namespace State

variable (s : State) (p : Pins) (ps : List Pins)

@[simp] theorem withPorts_seq : (s.withPorts p ps).seq = s.seq := rfl
@[simp] theorem withPorts_bte : (s.withPorts p ps).bte = s.bte := rfl
@[simp] theorem withPorts_pins : (s.withPorts p ps).pins = p := rfl
@[simp] theorem withPorts_rdata : (s.withPorts p ps).rdata = s.rdata := rfl
@[simp] theorem withPorts_rspData : (s.withPorts p ps).rspData = s.rspData := rfl
@[simp] theorem withPorts_trace : (s.withPorts p ps).trace = s.trace := rfl
@[simp] theorem withPorts_txn : (s.withPorts p ps).txn = s.txn := rfl
@[simp] theorem withPorts_self : s.withPorts s.pins s.inputs = s := rfl

/-! ### Operations that read no port -/

theorem recoverBte_withPorts : (s.withPorts p ps).recoverBte = s.recoverBte.withPorts p ps := by
  unfold recoverBte
  rw [apply_ite (State.withPorts · p ps)]
  rfl

theorem loadDone_withPorts : (s.withPorts p ps).loadDone = s.loadDone.withPorts p ps := by
  unfold loadDone
  rw [apply_ite (State.withPorts · p ps)]
  rfl

theorem pollDone_withPorts : (s.withPorts p ps).pollDone = s.pollDone.withPorts p ps := by
  unfold pollDone
  rw [apply_ite (State.withPorts · p ps), apply_ite (State.withPorts · p ps)]
  rfl

theorem drainDone_withPorts : (s.withPorts p ps).drainDone = s.drainDone.withPorts p ps := by
  unfold drainDone
  rw [apply_ite (State.withPorts · p ps)]
  rfl

theorem disarmDone_withPorts : (s.withPorts p ps).disarmDone = s.disarmDone.withPorts p ps := by
  unfold disarmDone
  rw [apply_ite (State.withPorts · p ps)]
  rfl

theorem complete_withPorts : (s.withPorts p ps).complete = s.complete.withPorts p ps := by
  unfold complete
  rw [withPorts_seq]
  cases s.seq
  case stLoad => exact s.loadDone_withPorts p ps
  case stPoll => exact s.pollDone_withPorts p ps
  case stDrain => exact s.drainDone_withPorts p ps
  case stDisarm => exact s.disarmDone_withPorts p ps
  all_goals rfl

end State

/-! ### The engine's edge, one equation per case (R78 to R85) -/

namespace State

variable {s : State}

theorem txnEdge_of_counting (hb : s.bte = .pre ∨ s.bte = .setup ∨ s.bte = .hold ∨ s.bte = .post) (hd : s.dly ≠ 0) :
    s.txnEdge = s.countDown := by
  obtain hb | hb | hb | hb := hb <;> simp [txnEdge, hb, hd]

theorem txnEdge_of_pre (hb : s.bte = .pre) (hd : s.dly = 0) :
    s.txnEdge = { s with bte := .setup, dly := s.build.tCsLess1 }.record .cs0 := by
  simp [txnEdge, hb, hd]

theorem txnEdge_of_setup (hb : s.bte = .setup) (hd : s.dly = 0) : s.txnEdge = { s with bte := .hdr } := by
  simp [txnEdge, hb, hd]

theorem txnEdge_of_hdr (hb : s.bte = .hdr) : s.txnEdge = s := by
  simp [txnEdge, hb]

theorem txnEdge_of_gap (hb : s.bte = .gap) : s.txnEdge = { s with bte := .data } := by
  simp [txnEdge, hb]

theorem txnEdge_of_data_wait (hb : s.bte = .data) (hx : s.pins.xDone = false) : s.txnEdge = s := by
  simp [txnEdge, hb, hx]

theorem txnEdge_of_data_done (hb : s.bte = .data) (hx : s.pins.xDone = true) : s.txnEdge = s.endData := by
  simp [txnEdge, hb, hx]

theorem txnEdge_of_hold (hb : s.bte = .hold) (hd : s.dly = 0) :
    s.txnEdge = { s with bte := .post, dly := s.build.tCsLess1 }.record .cs1 := by
  simp [txnEdge, hb, hd]

theorem txnEdge_of_post (hb : s.bte = .post) (hd : s.dly = 0) : s.txnEdge = s.complete := by
  simp [txnEdge, hb, hd]

end State

/-! ### Edges under two offers of port values -/

namespace State

variable {s : State} {p : Pins}

theorem takeResponse_withPorts (ps : List Pins) (h : p.rspReady = s.pins.rspReady) :
    (s.withPorts p ps).takeResponse = s.takeResponse.withPorts p ps := by
  unfold takeResponse
  rw [apply_ite (State.withPorts · p ps), withPorts_pins, h]
  rfl

/-- The engine reads the exchange port in the data exchange alone (the header exchange ends by a fetch). -/
theorem txnEdge_withPorts (ps : List Pins)
    (h : s.bte = .data → p.xDone = s.pins.xDone ∧ (p.xDone = true → p.xRx = s.pins.xRx)) :
    (s.withPorts p ps).txnEdge = s.txnEdge.withPorts p ps := by
  unfold txnEdge
  rw [withPorts_bte]
  cases hb : s.bte
  case hdr => rfl
  case gap => rfl
  case data =>
    obtain ⟨hdone, hrx⟩ := h hb
    cases hx : s.pins.xDone
    · simp [hdone, hx]
    · simp only [withPorts_pins, hdone, hx, if_true, endData, hrx (hdone.trans hx)]
      rfl
  case post =>
    rw [apply_ite (State.withPorts · p ps), complete_withPorts]
    rfl
  case unused => exact s.recoverBte_withPorts p ps
  all_goals
    rw [apply_ite (State.withPorts · p ps)]
    rfl

/-- An edge at which no word is fetched reads `rsp_ready` in `S_RESP` and the exchange port in the data exchange. -/
theorem edge_withPorts (ps : List Pins) (hr : s.seq = .resp → p.rspReady = s.pins.rspReady)
    (hx : s.seq.isTxn = true → s.bte = .data → p.xDone = s.pins.xDone ∧ (p.xDone = true → p.xRx = s.pins.xRx)) :
    (s.withPorts p ps).edge = s.edge.withPorts p ps := by
  by_cases hq : s.seq.isTxn = true
  · rw [edge_of_isTxn hq, edge_of_isTxn (s := s.withPorts p ps) hq, txnEdge_withPorts ps (hx hq)]
  · unfold edge
    rw [withPorts_seq]
    cases hs : s.seq
    case resp => exact (congrArg recoverBte (takeResponse_withPorts ps (hr hs))).trans (recoverBte_withPorts ..)
    case initWait | stWait =>
      rw [← recoverBte_withPorts, apply_ite (State.withPorts · p ps)]
      rfl
    case idle => exact s.recoverBte_withPorts p ps
    case stVerify => exact s.verify.recoverBte_withPorts p ps
    case unused => rfl
    all_goals simp [hs, SeqState.isTxn] at hq

end State

/-- A command word's meaning reads no port. -/
theorem exec_decodeCommand_withPorts (s : State) (w : CmdWord) :
    ∃ v : State, ∀ p ps, exec (decodeCommand w) (s.withPorts p ps) = .next (v.withPorts p ps) := by
  unfold decodeCommand
  split_ifs
  · exact ⟨(s.accept (writeRegWord (addrField w) (dataField w))).enter .host, fun _ _ => rfl⟩
  · exact ⟨(s.accept (readRegWord (addrField w) (dataField w))).enter .host, fun _ _ => rfl⟩
  · exact ⟨{ s.accept (selfTestWord (boundField w)) with polls := 0, toFlag := false }.enter .stRst, fun _ _ => rfl⟩
  · exact ⟨(s.accept w).respond .illegal 0x00, fun _ _ => rfl⟩

/-- Where no word is fetched, a step without reset takes the machine's own edge. -/
theorem stepSampled_of_edge {s : State} (hr : s.pins.rst = false) (hc : ¬ (s.seq = .idle ∧ s.pins.cmdValid = true))
    (hh : ¬ (s.seq.isTxn = true ∧ s.bte = .hdr ∧ s.pins.xDone = true)) : stepSampled s = .next s.edge := by
  obtain ⟨hr', -⟩ | ⟨-, hq, hv, -⟩ | ⟨-, hq, hb, hx, -⟩ | ⟨-, -, -, he⟩ := stepSampled_cases s
  · simp [hr] at hr'
  · exact absurd ⟨hq, hv⟩ hc
  · exact absurd ⟨hq, hb, hx⟩ hh
  · exact he

/-- In a transaction state a step that ends no header exchange is an edge of the engine (R77). -/
theorem stepSampled_of_isTxn {s : State} (hr : s.pins.rst = false) (hq : s.seq.isTxn = true)
    (hh : ¬ (s.bte = .hdr ∧ s.pins.xDone = true)) : stepSampled s = .next s.txnEdge := by
  rw [stepSampled_of_edge hr ?_ fun ⟨_, hb, hx⟩ => hh ⟨hb, hx⟩, State.edge_of_isTxn hq]
  rintro ⟨hi, -⟩
  simp [hi, SeqState.isTxn] at hq

/-- The data exchange ends (R83). -/
theorem stepSampled_of_data {s : State} (hr : s.pins.rst = false) (hq : s.seq.isTxn = true) (hb : s.bte = .data)
    (hx : s.pins.xDone = true) : stepSampled s = .next s.endData := by
  rw [stepSampled_of_isTxn hr hq (by simp [hb]), State.txnEdge_of_data_done hb hx]

theorem State.xReq_of_hdr {s : State} (hq : s.seq.isTxn = true) (hb : s.bte = .hdr) : s.xReq = true :=
  State.xReq_eq_true.2 ⟨hq, BteState.exchanging_eq_true.2 (.inl hb)⟩

theorem State.xReq_of_data {s : State} (hq : s.seq.isTxn = true) (hb : s.bte = .data) : s.xReq = true :=
  State.xReq_eq_true.2 ⟨hq, BteState.exchanging_eq_true.2 (.inr hb)⟩

/-- Two offers of port values that agree wherever `s` reads a port (R134). -/
structure AgreeWhereRead (s : State) (p q : Pins) : Prop where
  rst : p.rst = q.rst
  command : p.rst = false → s.cmdReady = true → p.cmdValid = q.cmdValid ∧ (p.cmdValid = true → p.cmdWord = q.cmdWord)
  response : p.rst = false → s.rspValid = true → p.rspReady = q.rspReady
  exchange : p.rst = false → s.xReq = true → p.xDone = q.xDone ∧ (p.xDone = true → p.xRx = q.xRx)

/-- A step reads its ports there and nowhere else: under such offers it answers the same state but for the ports. -/
theorem step_of_agreeWhereRead {s : State} {p q : Pins} (h : AgreeWhereRead s p q) (rest : List Pins) :
    ∃ v : State, step { s with inputs := p :: rest } = .next (v.withPorts p rest) ∧
      step { s with inputs := q :: rest } = .next (v.withPorts q rest) := by
  have hp : step { s with inputs := p :: rest } = stepSampled (s.withPorts p rest) := step_of_inputs rfl
  have hq : step { s with inputs := q :: rest } = stepSampled (s.withPorts q rest) := step_of_inputs rfl
  rw [hp, hq]
  obtain ⟨hr, he⟩ | ⟨hr, hs, hv, he⟩ | ⟨hr, hs, hb, hx, he⟩ | ⟨hr, hc, hh, he⟩ := stepSampled_cases (s.withPorts p rest)
  · exact ⟨s.resetEdge, he, stepSampled_of_rst (h.rst.symm.trans hr)⟩
  · obtain ⟨hvq, hw⟩ := h.command hr (State.cmdReady_eq_true.2 hs)
    obtain ⟨v, hexec⟩ := exec_decodeCommand_withPorts s.recoverBte p.cmdWord
    have heq := stepSampled_of_command (s := s.withPorts q rest) (h.rst.symm.trans hr) hs (hvq.symm.trans hv)
    rw [State.recoverBte_withPorts] at he heq
    rw [State.withPorts_pins, ← hw hv] at heq
    exact ⟨v, he.trans (hexec p rest), heq.trans (hexec q rest)⟩
  · obtain ⟨hxq, hrx⟩ := h.exchange hr (State.xReq_of_hdr hs hb)
    have heq := stepSampled_of_header (s := s.withPorts q rest) (h.rst.symm.trans hr) hs hb (hxq.symm.trans hx)
    refine ⟨(s.withPorts p rest).endHeader s.txn.headerByte, he, heq.trans ?_⟩
    simp only [State.endHeader, State.withPorts_pins, hrx hx]
    rfl
  · have hdata : s.seq.isTxn = true → s.bte = .data → q.xDone = p.xDone ∧ (q.xDone = true → q.xRx = p.xRx) := by
      intro hs hb
      obtain ⟨hxq, hrx⟩ := h.exchange hr (State.xReq_of_data hs hb)
      exact ⟨hxq.symm, fun hx => (hrx (hxq.trans hx)).symm⟩
    have heq : stepSampled (s.withPorts q rest) = .next (s.withPorts q rest).edge := by
      refine stepSampled_of_edge (h.rst.symm.trans hr) ?_ ?_
      · rintro ⟨hs, hv⟩
        exact hc ⟨hs, (h.command hr (State.cmdReady_eq_true.2 hs)).1.trans hv⟩
      · rintro ⟨hs, hb, hx⟩
        exact hh ⟨hs, hb, (h.exchange hr (State.xReq_of_hdr hs hb)).1.trans hx⟩
    refine ⟨(s.withPorts p rest).edge, he.trans (congrArg _ ?_), heq.trans (congrArg _ ?_)⟩
    · exact State.edge_withPorts (s := s.withPorts p rest) rest (fun _ => rfl) (fun _ _ => ⟨rfl, fun _ => rfl⟩)
    · exact State.edge_withPorts (s := s.withPorts p rest) rest
        (fun hs => (h.response hr (State.rspValid_eq_true.2 hs)).symm) hdata

/-- Settles O31. Where no exchange completes the two offers agree wherever a port is read; the end of a header exchange keeps the
byte in the trace alone, and the end of a data exchange puts it into RDATA as well, if the transaction is a read. -/
theorem receivedByteReachesOnlyReadData : Obligations.ReceivedByteReachesOnlyReadData := by
  intro s p rx rest
  have hp : step { s with inputs := p :: rest } = stepSampled (s.withPorts p rest) := step_of_inputs rfl
  have hq : step { s with inputs := { p with xRx := rx } :: rest } = stepSampled (s.withPorts { p with xRx := rx } rest) :=
    step_of_inputs rfl
  by_cases hdone : p.rst = false ∧ s.xReq = true ∧ p.xDone = true
  · obtain ⟨hr, hreq, hx⟩ := hdone
    obtain ⟨hs, he⟩ := State.xReq_eq_true.1 hreq
    obtain hb | hb := BteState.exchanging_eq_true.1 he
    · refine ⟨_, _, hp.trans (stepSampled_of_header hr hs hb hx), hq.trans (stepSampled_of_header hr hs hb hx), rfl,
        fun _ => rfl, fun _ hdata => ?_⟩
      simp [hb] at hdata
    · refine ⟨_, _, hp.trans (stepSampled_of_data hr hs hb hx), hq.trans (stepSampled_of_data hr hs hb hx), rfl,
        fun hn => ?_, fun _ _ hw _ _ => ?_⟩
      · have hw : ¬ s.txn.rw = true := fun hw => hn ⟨hs, hb, hw⟩
        simp [hw]
      · simp [hw]
  · have hagree : AgreeWhereRead s p { p with xRx := rx } :=
      ⟨rfl, fun _ _ => ⟨rfl, fun _ => rfl⟩, fun _ _ => rfl,
        fun hr hreq => ⟨rfl, fun hx => absurd ⟨hr, hreq, hx⟩ hdone⟩⟩
    obtain ⟨v, ht, hu⟩ := step_of_agreeWhereRead hagree rest
    refine ⟨_, _, ht, hu, rfl, fun _ => rfl, fun hs hb _ hr hx => ?_⟩
    exact absurd ⟨hr, State.xReq_of_data hs hb, hx⟩ hdone

end Sys2Proof.Machine
end

section
/-! One served transaction from its first `B_PRE` cycle to its completion edge (spec/40_bus_transactions.md R77 to R86, R89). -/

namespace Sys2Proof.Machine

/-- Driven by the port values `ps`, the RAC goes from `s` to `u`, whatever stood on the ports before and whatever comes after. -/
def RunsThrough (ps : List Pins) (s u : State) : Prop :=
  ∀ p rest, Runs ps.length (s.withPorts p (ps ++ rest)) (u.withPorts (ps.getLastD p) rest)

variable {s t u : State} {ps qs : List Pins}

theorem RunsThrough.runs (h : RunsThrough ps s u) {rest : List Pins} (hin : s.inputs = ps ++ rest) :
    Runs ps.length s (u.withPorts (ps.getLastD s.pins) rest) := by
  have hrun := h s.pins rest
  rwa [← hin, State.withPorts_self] at hrun

theorem RunsThrough.nil (s : State) : RunsThrough [] s s := fun _ _ => rfl

theorem RunsThrough.append (h : RunsThrough ps s t) (h' : RunsThrough qs t u) : RunsThrough (ps ++ qs) s u := by
  intro p rest
  have hlast : (ps ++ qs).getLastD p = qs.getLastD (ps.getLastD p) := by
    simp [List.getLastD_eq_getLast?, List.getLast?_append]
  rw [List.length_append, List.append_assoc, hlast]
  exact (h p (qs ++ rest)).append (h' _ rest)

theorem RunsThrough.single {p : Pins} (h : ∀ rest, stepSampled (s.withPorts p rest) = .next (u.withPorts p rest)) :
    RunsThrough [p] s u :=
  fun _ rest => ⟨_, (step_of_inputs rfl).trans (h rest), rfl⟩

/-! ### The phases of a window -/

/-- Outside the two exchanges the engine's edge reads no port. -/
theorem RunsThrough.engineEdge {p : Pins} (hq : s.seq.isTxn = true) (hb : s.bte.exchanging = false) (hr : p.rst = false)
    (hend : s.txnEdge = u) : RunsThrough [p] s u := by
  refine .single fun rest => ?_
  rw [stepSampled_of_isTxn (s := s.withPorts p rest) hr hq, State.txnEdge_withPorts, hend]
  · intro hd
    simp [hd, BteState.exchanging] at hb
  · rintro ⟨hd, -⟩
    rw [State.withPorts_bte] at hd
    simp [hd, BteState.exchanging] at hb

/-- A settle delay lasts `DLY + 1` edges; the last of them is the engine's edge with `DLY` at 0. -/
theorem runsThrough_delay {n : Nat} (hq : s.seq.isTxn = true)
    (hb : s.bte = .pre ∨ s.bte = .setup ∨ s.bte = .hold ∨ s.bte = .post) (hd : s.dly = n) (hw : Waits (n + 1) ps)
    (hend : State.txnEdge { s with dly := 0 } = u) : RunsThrough ps s u := by
  subst hend
  have hx : s.bte.exchanging = false := by obtain hb | hb | hb | hb := hb <;> simp [hb, BteState.exchanging]
  obtain ⟨hlen, hrst⟩ := hw
  induction n generalizing s ps with
  | zero =>
    obtain ⟨p, rfl⟩ := List.length_eq_one_iff.1 hlen
    rw [← hd]
    exact .engineEdge hq hx (hrst p (by simp)) rfl
  | succ n ih =>
    obtain ⟨p, ps, rfl⟩ := List.exists_cons_of_length_eq_add_one hlen
    rw [List.forall_mem_cons] at hrst
    have hcount : RunsThrough [p] s s.countDown :=
      .engineEdge hq hx hrst.1 (State.txnEdge_of_counting hb (by omega))
    exact hcount.append (ih (s := s.countDown) hq hb (by simp [hd]) hx (by simpa using hlen) hrst.2)

/-- A requested exchange is held while `x_done` is 0 (R80). -/
theorem runsThrough_wait (hreq : s.xReq = true) (hw : ∀ p ∈ ps, p.rst = false ∧ p.xDone = false) :
    RunsThrough ps s s := by
  obtain ⟨hq, hx⟩ := State.xReq_eq_true.1 hreq
  induction ps with
  | nil => exact .nil s
  | cons p ps ih =>
    obtain ⟨⟨hr, hd⟩, hw⟩ := List.forall_mem_cons.1 hw
    refine RunsThrough.append (.single fun rest => ?_) (ih hw)
    have hne : ¬ (s.bte = .hdr ∧ p.xDone = true) := by simp [hd]
    rw [stepSampled_of_isTxn (s := s.withPorts p rest) hr hq hne]
    obtain hb | hb := BteState.exchanging_eq_true.1 hx
    · rw [State.txnEdge_of_hdr (s := s.withPorts p rest) hb]
    · rw [State.txnEdge_of_data_wait (s := s.withPorts p rest) hb hd]

theorem Waits.exists_append {m n : Nat} (h : Waits (m + n) ps) :
    ∃ qs rs, ps = qs ++ rs ∧ Waits m qs ∧ Waits n rs := by
  obtain ⟨hlen, hrst⟩ := h
  refine ⟨ps.take m, ps.drop m, (List.take_append_drop m ps).symm, ⟨?_, ?_⟩, ⟨?_, ?_⟩⟩
  · rw [List.length_take]; omega
  · exact fun p hp => hrst p (List.mem_of_mem_take hp)
  · rw [List.length_drop]; omega
  · exact fun p hp => hrst p (List.mem_of_mem_drop hp)

/-- The window opens between the first two delays (R78, R79). -/
theorem runsThrough_opening (hq : s.seq.isTxn = true) (hb : s.bte = .pre) (hd : s.dly = s.build.tCsLess1)
    (hw : Waits (2 * s.build.tCs) ps) :
    RunsThrough ps s { s with bte := .hdr, dly := 0, trace := .cs0 :: s.trace } := by
  rw [Nat.two_mul] at hw
  obtain ⟨before, after, rfl, hbefore, hafter⟩ := hw.exists_append
  have hpre := runsThrough_delay hq (.inl hb) hd hbefore (State.txnEdge_of_pre hb rfl)
  have hsetup := runsThrough_delay (s := { s with bte := .setup, dly := s.build.tCsLess1, trace := .cs0 :: s.trace })
    hq (.inr (.inl rfl)) rfl hafter (State.txnEdge_of_setup rfl rfl)
  exact hpre.append hsetup

/-- The header exchange and the gap; the byte received goes into the trace alone (R81, R82). -/
theorem runsThrough_header {wait : List Pins} {done gap : Pins} (hq : s.seq.isTxn = true) (hb : s.bte = .hdr)
    (hw : ∀ p ∈ wait, p.rst = false ∧ p.xDone = false) (hr : done.rst = false) (hx : done.xDone = true)
    (hg : gap.rst = false) :
    RunsThrough (wait ++ [done, gap]) s { s with bte := .data, trace := .x s.txn.headerByte done.xRx :: s.trace } := by
  have hdone : RunsThrough [done] s { s with bte := .gap, trace := .x s.txn.headerByte done.xRx :: s.trace } :=
    .single fun _ => stepSampled_of_header hr hq hb hx
  have hgap := hdone.append (.engineEdge hq rfl hg (State.txnEdge_of_gap rfl))
  exact (runsThrough_wait (State.xReq_of_hdr hq hb) hw).append hgap

/-- The data exchange; a read takes the byte received (R83). -/
theorem runsThrough_data {wait : List Pins} {done : Pins} (hq : s.seq.isTxn = true) (hb : s.bte = .data)
    (hw : ∀ p ∈ wait, p.rst = false ∧ p.xDone = false) (hr : done.rst = false) (hx : done.xDone = true) :
    RunsThrough (wait ++ [done]) s
      { s with
        rdata := if s.txn.rw then done.xRx else s.rdata
        bte := .hold
        dly := s.build.tCsLess1
        trace := .x s.txn.secondByte done.xRx :: s.trace } :=
  (runsThrough_wait (State.xReq_of_data hq hb) hw).append (.single fun _ => stepSampled_of_data hr hq hb hx)

/-- The window closes between the last two delays, and the sequencer acts at the end of the last (R84, R85). -/
theorem runsThrough_closing (hq : s.seq.isTxn = true) (hb : s.bte = .hold) (hd : s.dly = s.build.tCsLess1)
    (hw : Waits (2 * s.build.tCs) ps) :
    RunsThrough ps s (State.complete { s with bte := .post, dly := 0, trace := .cs1 :: s.trace }) := by
  rw [Nat.two_mul] at hw
  obtain ⟨before, after, rfl, hbefore, hafter⟩ := hw.exists_append
  have hhold := runsThrough_delay hq (.inr (.inr (.inl hb))) hd hbefore (State.txnEdge_of_hold hb rfl)
  have hpost := runsThrough_delay (s := { s with bte := .post, dly := s.build.tCsLess1, trace := .cs1 :: s.trace })
    hq (.inr (.inr (.inr rfl))) rfl hafter (State.txnEdge_of_post rfl rfl)
  exact hhold.append hpost

/-! ### The whole transaction -/

/-- `s` at the completion edge of its transaction, `r` the bytes received: the frame is in the trace, and a read has taken the
second byte. -/
def State.frameSent (s : State) (r : Byte × Byte) : State :=
  { s with
    bte := .post
    dly := 0
    rdata := if s.txn.rw then r.2 else s.rdata
    trace := .cs1 :: .x s.txn.secondByte r.2 :: .x s.txn.headerByte r.1 :: .cs0 :: s.trace }

/-- A served transaction sends its frame, and then the sequencer acts. -/
theorem runsThrough_transaction {r : Byte × Byte} (hq : s.seq.isTxn = true) (hb : s.bte = .pre)
    (hd : s.dly = s.build.tCsLess1) (hs : ServesTxn s.build r ps) : RunsThrough ps s (s.frameSent r).complete := by
  obtain ⟨lead, hdrWait, hdrDone, gap, dataWait, dataDone, tail, rfl, hlead, htail, hhw, hhx, hhrx, hdw, hdx,
    hdrx, hrst⟩ := hs
  simp only [List.flatten_cons, List.flatten_nil, List.append_nil, List.forall_mem_append, List.forall_mem_cons] at hrst
  obtain ⟨hlr, hhwr, ⟨hhr, hgr, -⟩, hdwr, ⟨hdr, -⟩, htr⟩ := hrst
  have hopen := runsThrough_opening hq hb hd ⟨hlead, hlr⟩
  have hhdr := runsThrough_header (s := { s with bte := .hdr, dly := 0, trace := .cs0 :: s.trace }) hq rfl
    (fun p hp => ⟨hhwr p hp, hhw p hp⟩) hhr hhx hgr
  have hdata := runsThrough_data
    (s := { s with bte := .data, dly := 0, trace := .x s.txn.headerByte hdrDone.xRx :: .cs0 :: s.trace }) hq rfl
    (fun p hp => ⟨hdwr p hp, hdw p hp⟩) hdr hdx
  have hclose := runsThrough_closing
    (s := { s with
      bte := .hold
      dly := s.build.tCsLess1
      rdata := if s.txn.rw then dataDone.xRx else s.rdata
      trace := .x s.txn.secondByte dataDone.xRx :: .x s.txn.headerByte hdrDone.xRx :: .cs0 :: s.trace }) hq rfl rfl
    ⟨htail, htr⟩
  have hall := hopen.append (hhdr.append (hdata.append hclose))
  simpa [State.frameSent, ← hhrx, ← hdrx] using hall

end Sys2Proof.Machine
end

section
/-! The register commands: one transaction in `S_HOST`, then the response (R91, R92, spec/41_self_test.md R99, R100). -/

namespace Sys2Proof.Machine

/-! ### The transaction a command word asks for (R101) -/

theorem addrField_append (op : BitVec 2) (a : Addr) (d : Byte) : addrField (op ++ a ++ d) = a := by
  rw [addrField, BitVec.extractLsb'_append_eq_of_le (le_refl 8), Nat.sub_self, BitVec.extractLsb'_append_eq_right]

theorem dataField_append (op : BitVec 2) (a : Addr) (d : Byte) : dataField (op ++ a ++ d) = d :=
  BitVec.extractLsb'_append_eq_right

theorem modeBit_writeRegWord (a : Addr) (d : Byte) : (writeRegWord a d).getLsbD 14 = false := by
  simp only [writeRegWord, BitVec.getLsbD_append]
  rfl

theorem modeBit_readRegWord (a : Addr) (x : Byte) : (readRegWord a x).getLsbD 14 = true := by
  simp only [readRegWord, BitVec.getLsbD_append]
  rfl

theorem hostTxn_writeRegWord (a : Addr) (d : Byte) : hostTxn (writeRegWord a d) = .regWrite a d := by
  simp only [hostTxn, modeBit_writeRegWord, Bool.false_eq_true, if_false]
  rw [writeRegWord, addrField_append, dataField_append]

theorem hostTxn_readRegWord (a : Addr) (x : Byte) : hostTxn (readRegWord a x) = .regRead a := by
  simp only [hostTxn, modeBit_readRegWord, if_true]
  rw [readRegWord, addrField_append]

/-! ### Acceptance, the transaction, the response -/

/-- What the RAC has done when a register command `w` ends, the bytes received being `r`. -/
def State.registerCommandDone (s : State) (w : CmdWord) (r : Byte × Byte) : State :=
  (((s.accept w).enter .host).frameSent r).hostDone

theorem State.registerCommandDone_rdata (s : State) (w : CmdWord) (r : Byte × Byte) :
    (s.registerCommandDone w r).rdata = if (hostTxn w).rw then r.2 else s.rdata := rfl

theorem State.registerCommandDone_rspData (s : State) (w : CmdWord) (r : Byte × Byte) :
    (s.registerCommandDone w r).rspData = if w.getLsbD 14 then (s.registerCommandDone w r).rdata else 0x00 := rfl

theorem State.registerCommandDone_trace (s : State) (w : CmdWord) (r : Byte × Byte) :
    (s.registerCommandDone w r).trace =
      .cs1 :: .x (hostTxn w).secondByte r.2 :: .x (hostTxn w).headerByte r.1 :: .cs0 :: s.trace := rfl

/-- From the acceptance of a register command, a served RAC runs its one transaction and responds. -/
theorem runs_registerCommand {s : State} {r : Byte × Byte} {ps rest : List Pins} (w : CmdWord)
    (hs : ServesTxn s.build r ps) (hin : s.inputs = ps ++ rest) :
    Runs ps.length ((s.accept w).enter .host)
      ((s.registerCommandDone w r).withPorts (ps.getLastD s.pins) rest) :=
  (runsThrough_transaction (s := (s.accept w).enter .host) rfl rfl rfl hs).runs hin

/-- Settles O21: the run is that of any register command, and the word's transaction is `RegWrite(a, d)`. -/
theorem writeRegSendsItsFrameAndRespondsOk : Obligations.WriteRegSendsItsFrameAndRespondsOk := by
  intro s a d r ps rest hs hin
  refine ⟨_, _, rfl, rfl, rfl, runs_registerCommand _ hs hin, rfl, rfl, rfl, ?rspData, ?trace, rfl, rfl, rfl, rfl, ?rdata,
    rfl, rfl, rfl⟩
  case rspData =>
    rw [State.withPorts_rspData, State.registerCommandDone_rspData, modeBit_writeRegWord]
    rfl
  case trace =>
    rw [State.withPorts_trace, State.registerCommandDone_trace, hostTxn_writeRegWord]
    rfl
  case rdata =>
    rw [State.withPorts_rdata, State.registerCommandDone_rdata, hostTxn_writeRegWord]
    rfl

/-- Settles O22: as for a write; the word's transaction is `RegRead(a)`, whatever the ignored byte is. -/
theorem readRegSendsItsFrameAndRespondsTheByteRead : Obligations.ReadRegSendsItsFrameAndRespondsTheByteRead := by
  intro s a x r ps rest hs hin
  have hrdata : (s.registerCommandDone (readRegWord a x) r).rdata = r.2 := by
    rw [State.registerCommandDone_rdata, hostTxn_readRegWord]
    rfl
  refine ⟨_, _, rfl, rfl, rfl, runs_registerCommand _ hs hin, rfl, rfl, rfl, ?rspData, hrdata, ?trace, rfl, rfl, rfl, rfl,
    rfl, rfl, rfl⟩
  case rspData =>
    rw [State.withPorts_rspData, State.registerCommandDone_rspData, modeBit_readRegWord, hrdata]
    rfl
  case trace =>
    rw [State.withPorts_trace, State.registerCommandDone_trace, hostTxn_readRegWord]
    rfl

end Sys2Proof.Machine
end

section
/-! One edge in `S_IDLE` and in `S_RESP` (spec/41_self_test.md R99, R117). -/

namespace Sys2Proof

/-! ### A command word is made of its fields (R62) -/

theorem opField_append_boundField (w : CmdWord) : opField w ++ boundField w = w :=
  (BitVec.extractLsb'_append_extractLsb'_eq_extractLsb' (len₁ := 14) (len₂ := 2) rfl).trans BitVec.extractLsb'_eq_self

theorem opField_append_addrField (w : CmdWord) : opField w ++ addrField w = w.extractLsb' 8 8 :=
  BitVec.extractLsb'_append_extractLsb'_eq_extractLsb' (len₁ := 6) (len₂ := 2) rfl

theorem opField_append_addrField_append_dataField (w : CmdWord) : opField w ++ addrField w ++ dataField w = w := by
  rw [opField_append_addrField]
  exact (BitVec.extractLsb'_append_extractLsb'_eq_extractLsb' (len₁ := 8) (len₂ := 8) rfl).trans
    BitVec.extractLsb'_eq_self

theorem writeRegWord_fields {w : CmdWord} (h : opField w = 0b00#2) : writeRegWord (addrField w) (dataField w) = w := by
  rw [writeRegWord, ← h, opField_append_addrField_append_dataField]

theorem readRegWord_fields {w : CmdWord} (h : opField w = 0b01#2) : readRegWord (addrField w) (dataField w) = w := by
  rw [readRegWord, ← h, opField_append_addrField_append_dataField]

theorem selfTestWord_boundField {w : CmdWord} (h : opField w = 0b10#2) : selfTestWord (boundField w) = w := by
  rw [selfTestWord, ← h, opField_append_boundField]

end Sys2Proof

namespace Sys2Proof.Machine

variable {s : State} {w : CmdWord}

/-! ### The meaning of a command word, by its `op` -/

/-- Both register commands latch the whole word and start the host transaction (R99). -/
theorem exec_decodeCommand_register (h : opField w = 0b00#2 ∨ opField w = 0b01#2) :
    exec (decodeCommand w) s = .next ((s.accept w).enter .host) := by
  obtain h | h := h
  · simp [decodeCommand, h, exec, execWriteReg, writeRegWord_fields h]
  · simp [decodeCommand, h, exec, execReadReg, readRegWord_fields h]

theorem exec_decodeCommand_selfTest (h : opField w = 0b10#2) :
    exec (decodeCommand w) s = .next ({ s.accept w with polls := 0, toFlag := false }.enter .stRst) := by
  simp [decodeCommand, h, exec, execSelfTest, selfTestWord_boundField h]

theorem exec_decodeCommand_illegal (h : opField w = 0b11#2) :
    exec (decodeCommand w) s = .next ((s.accept w).respond .illegal 0x00) := by
  simp [decodeCommand, h, exec, execIllegal]

/-! ### The edges -/

/-- Outside the transaction states nothing but a command is fetched. -/
theorem stepSampled_of_not_isTxn (hr : s.pins.rst = false) (hq : s.seq.isTxn = false)
    (hc : s.seq = .idle → s.pins.cmdValid = false) : stepSampled s = .next s.edge :=
  stepSampled_of_edge hr (fun ⟨hi, hv⟩ => by simp [hc hi] at hv) (fun ⟨ht, _⟩ => by simp [hq] at ht)

theorem State.edge_of_idle (hq : s.seq = .idle) (hb : s.bte ≠ .unused) : s.edge = s := by
  simp [State.edge, hq, s.recoverBte_of_used hb]

theorem State.edge_of_resp (hq : s.seq = .resp) (hb : s.bte ≠ .unused) : s.edge = s.takeResponse := by
  have hu : s.takeResponse.bte ≠ .unused := by
    cases h : s.pins.rspReady
    · rwa [s.takeResponse_of_not_ready h]
    · rwa [s.takeResponse_of_ready h]
  simp [State.edge, hq, State.recoverBte_of_used _ hu]

/-- Settles O20: with no command offered the edge is the machine's own; a command accepted runs as its `op` says. -/
theorem idleEdgeAcceptsAndDispatches : Obligations.IdleEdgeAcceptsAndDispatches := by
  intro s hq hb hr w
  rw [← s.sample_seq] at hq
  rw [← s.sample_bte] at hb
  have haccept (hv : s.sample.pins.cmdValid = true) : step s = exec (decodeCommand w) s.sample := by
    rw [step, stepSampled_of_command hr hq hv, State.recoverBte_of_used _ hb]
  rw [← s.sample_build]
  refine ⟨fun hv => ?none, fun hv hop => ?register, fun hv hop => ?selfTest, fun hv hop => ?illegal⟩
  case none =>
    rw [step, stepSampled_of_not_isTxn hr (by rw [hq]; rfl) (fun _ => hv), State.edge_of_idle hq hb]
  case register => exact (haccept hv).trans (exec_decodeCommand_register hop)
  case selfTest => exact (haccept hv).trans (exec_decodeCommand_selfTest hop)
  case illegal => exact (haccept hv).trans (exec_decodeCommand_illegal hop)

/-- Settles O34: no word is fetched in `S_RESP`, so the edge is the machine's own. -/
theorem responseIsTakenOrHeld : Obligations.ResponseIsTakenOrHeld := by
  intro s hq hb hr
  refine ⟨State.rspValid_eq_true.2 hq, ?_⟩
  rw [← s.sample_seq] at hq
  rw [← s.sample_bte] at hb
  have hstep : step s = .next s.sample.takeResponse := by
    rw [step, stepSampled_of_not_isTxn hr (by rw [hq]; rfl) (by rw [hq]; nofun), State.edge_of_resp hq hb]
  exact ⟨fun hready => hstep.trans (congrArg _ (State.takeResponse_of_ready _ hready)),
    fun hready => hstep.trans (congrArg _ (State.takeResponse_of_not_ready _ hready))⟩

end Sys2Proof.Machine
end

section
/-! What holds at every edge of a delay and of a served transaction, not only after the last (spec/40_bus_transactions.md R77 to
R85), and the soft-reset settle delay (spec/41_self_test.md R98, R103). -/

namespace Sys2Proof.Machine

/-- Driven by the port values `ps` from `s`, the RAC satisfies `P` before each of these edges. -/
def HoldsAlong (P : State → Prop) (ps : List Pins) (s : State) : Prop :=
  ∀ m < ps.length, ∃ v, RunsThrough (ps.take m) s v ∧ P v

variable {P : State → Prop} {s t u : State} {ps qs : List Pins}

theorem HoldsAlong.runs (h : HoldsAlong P ps s) {rest : List Pins} (hin : s.inputs = ps ++ rest) {m : Nat}
    (hm : m < ps.length) : ∃ v p qs, Runs m s (v.withPorts p qs) ∧ P v := by
  obtain ⟨v, hv, hP⟩ := h m hm
  have hin' : s.inputs = ps.take m ++ (ps.drop m ++ rest) := by rw [← List.append_assoc, List.take_append_drop, hin]
  have hrun := hv.runs hin'
  rw [List.length_take, Nat.min_eq_left hm.le] at hrun
  exact ⟨v, _, _, hrun, hP⟩

theorem HoldsAlong.single {p : Pins} (h : P s) : HoldsAlong P [p] s := by
  intro m hm
  obtain rfl : m = 0 := by simpa using hm
  exact ⟨s, .nil s, h⟩

theorem HoldsAlong.append (h : HoldsAlong P ps s) (hr : RunsThrough ps s t) (h' : HoldsAlong P qs t) :
    HoldsAlong P (ps ++ qs) s := by
  intro m hm
  obtain hlt | hge := lt_or_ge m ps.length
  · rw [List.take_append_of_le_length hlt.le]
    exact h m hlt
  · obtain ⟨v, hv, hP⟩ := h' (m - ps.length) (by rw [List.length_append] at hm; omega)
    rw [List.take_append, List.take_of_length_le hge]
    exact ⟨v, hr.append hv, hP⟩

/-! ### Delays -/

/-- The states in which the machine counts `DLY` down: the engine's four delays and the two settle waits (R25). -/
def State.Counts (s : State) : Prop :=
  (s.seq.isTxn = true ∧ (s.bte = .pre ∨ s.bte = .setup ∨ s.bte = .hold ∨ s.bte = .post)) ∨
  ((s.seq = .initWait ∨ s.seq = .stWait) ∧ s.bte ≠ .unused)

theorem stepSampled_of_counts (hc : s.Counts) (hr : s.pins.rst = false) (hd : s.dly ≠ 0) :
    stepSampled s = .next s.countDown := by
  obtain ⟨hq, hb⟩ | ⟨hq, hb⟩ := hc
  · rw [stepSampled_of_isTxn hr hq, State.txnEdge_of_counting hb hd]
    rintro ⟨hh, -⟩
    simp [hh] at hb
  · have hu : s.countDown.recoverBte = s.countDown := State.recoverBte_of_used _ hb
    obtain hq | hq := hq <;>
      rw [stepSampled_of_not_isTxn hr (by rw [hq]; rfl) (by rw [hq]; nofun)] <;>
      simp [State.edge, hq, hd, hu]

theorem Waits.take {m n : Nat} (h : Waits n ps) (hm : m ≤ n) : Waits m (ps.take m) := by
  obtain ⟨hlen, hrst⟩ := h
  refine ⟨?_, fun p hp => hrst p (List.mem_of_mem_take hp)⟩
  rw [List.length_take]
  omega

theorem runsThrough_counting {m : Nat} (hc : s.Counts) (hw : Waits m ps) (hm : m ≤ s.dly) :
    RunsThrough ps s { s with dly := s.dly - m } := by
  obtain ⟨hlen, hrst⟩ := hw
  induction m generalizing s ps with
  | zero =>
    obtain rfl := List.length_eq_zero_iff.1 hlen
    exact .nil s
  | succ m ih =>
    obtain ⟨p, ps, rfl⟩ := List.exists_cons_of_length_eq_add_one hlen
    obtain ⟨hr, hrst⟩ := List.forall_mem_cons.1 hrst
    have hcount : RunsThrough [p] s s.countDown :=
      .single fun rest => stepSampled_of_counts (s := s.withPorts p rest) hc hr (Nat.ne_zero_of_lt hm)
    have hrest := ih (s := s.countDown) hc (Nat.le_sub_one_of_lt hm) (Nat.succ.inj hlen) hrst
    rw [State.countDown_dly, Nat.sub_sub, Nat.add_comm 1 m] at hrest
    exact hcount.append hrest

/-- A delay lasts `DLY + 1` edges, and before each of them only `DLY` has changed. -/
theorem holdsAlong_delay {n : Nat} (hc : s.Counts) (hd : s.dly = n) (hw : Waits (n + 1) ps)
    (hP : ∀ d, P { s with dly := d }) : HoldsAlong P ps s := by
  intro m hm
  rw [hw.1] at hm
  exact ⟨_, runsThrough_counting hc (hw.take hm.le) (by omega), hP _⟩

/-- A soft-reset settle lasts `DLY + 1` edges; the last of them is the machine's edge with `DLY` at 0. -/
theorem runsThrough_settle {n : Nat} (hq : s.seq = .initWait ∨ s.seq = .stWait) (hb : s.bte ≠ .unused) (hd : s.dly = n)
    (hw : Waits (n + 1) ps) (hend : State.edge { s with dly := 0 } = u) : RunsThrough ps s u := by
  obtain ⟨before, last, rfl, hbefore, hlen, hlast⟩ := hw.exists_append
  obtain ⟨p, rfl⟩ := List.length_eq_one_iff.1 hlen
  have hcount := runsThrough_counting (.inr ⟨hq, hb⟩) hbefore hd.ge
  rw [hd, Nat.sub_self] at hcount
  refine hcount.append (.single fun rest => ?_)
  have hnt : s.seq.isTxn = false ∧ s.seq ≠ .idle ∧ s.seq ≠ .resp := by obtain hq | hq := hq <;> rw [hq] <;> decide
  obtain ⟨ht, hi, hresp⟩ := hnt
  rw [stepSampled_of_not_isTxn (s := State.withPorts { s with dly := 0 } p rest) (hlast p (by simp)) ht
    fun h => absurd h hi, State.edge_withPorts, hend]
  · exact fun h => absurd h hresp
  · intro h
    simp [ht] at h

/-! ### The phases of a window -/

/-- While an exchange is requested, and at the edge that completes it, nothing has changed (R80). -/
theorem holdsAlong_exchange {wait : List Pins} {done : Pins} (hreq : s.xReq = true)
    (hw : ∀ p ∈ wait, p.rst = false ∧ p.xDone = false) (hP : P s) : HoldsAlong P (wait ++ [done]) s := by
  have hwait : HoldsAlong P wait s := fun m _ =>
    ⟨s, runsThrough_wait hreq fun p hp => hw p (List.mem_of_mem_take hp), hP⟩
  exact hwait.append (runsThrough_wait hreq hw) (.single hP)

/-- The two delays around an edge of `cs_n` (R78, R79, R84, R85). -/
theorem holdsAlong_toggle (hq : s.seq.isTxn = true) (hb : s.bte = .pre ∨ s.bte = .hold) (hd : s.dly = s.build.tCsLess1)
    (hw : Waits (2 * s.build.tCs) ps) (hP : ∀ v : State, v.seq = s.seq → v.cmd = s.cmd → P v) : HoldsAlong P ps s := by
  rw [Nat.two_mul] at hw
  obtain ⟨before, after, rfl, hbefore, hafter⟩ := hw.exists_append
  have hb' : s.bte = .pre ∨ s.bte = .setup ∨ s.bte = .hold ∨ s.bte = .post := hb.imp_right fun h => .inr (.inl h)
  have htoggle : ∃ b e, (b = .setup ∨ b = .post) ∧
      State.txnEdge { s with dly := 0 } = { s with bte := b, dly := s.build.tCsLess1, trace := e :: s.trace } := by
    obtain hb | hb := hb
    · exact ⟨_, _, .inl rfl, State.txnEdge_of_pre hb rfl⟩
    · exact ⟨_, _, .inr rfl, State.txnEdge_of_hold hb rfl⟩
  obtain ⟨b, e, hnext, hend⟩ := htoggle
  have hfirst := holdsAlong_delay (.inl ⟨hq, hb'⟩) hd hbefore fun _ => hP _ rfl rfl
  have hsecond := holdsAlong_delay (s := { s with bte := b, dly := s.build.tCsLess1, trace := e :: s.trace })
    (.inl ⟨hq, .inr (hnext.imp_right .inr)⟩) rfl hafter fun _ => hP _ rfl rfl
  exact hfirst.append (runsThrough_delay hq hb' hd hbefore hend) hsecond

/-- The header exchange and the gap (R81, R82). -/
theorem holdsAlong_header {wait : List Pins} {done gap : Pins} (hq : s.seq.isTxn = true) (hb : s.bte = .hdr)
    (hw : ∀ p ∈ wait, p.rst = false ∧ p.xDone = false) (hr : done.rst = false) (hx : done.xDone = true)
    (hP : ∀ v : State, v.seq = s.seq → v.cmd = s.cmd → P v) : HoldsAlong P (wait ++ [done, gap]) s := by
  have hreq := State.xReq_of_hdr hq hb
  have hdone : RunsThrough (wait ++ [done]) s
      { s with bte := .gap, trace := .x s.txn.headerByte done.xRx :: s.trace } :=
    (runsThrough_wait hreq hw).append (.single fun _ => stepSampled_of_header hr hq hb hx)
  have hall := (holdsAlong_exchange hreq hw (hP s rfl rfl)).append hdone (.single (p := gap) (hP _ rfl rfl))
  rwa [List.append_assoc] at hall

/-- Before each edge of a served transaction, its completion edge included, SEQ and CMD are those it began with (R77). -/
theorem holdsAlong_transaction {r : Byte × Byte} (hq : s.seq.isTxn = true) (hb : s.bte = .pre)
    (hd : s.dly = s.build.tCsLess1) (hs : ServesTxn s.build r ps)
    (hP : ∀ v : State, v.seq = s.seq → v.cmd = s.cmd → P v) : HoldsAlong P ps s := by
  obtain ⟨lead, hdrWait, hdrDone, gap, dataWait, dataDone, tail, rfl, hlead, htail, hhw, hhx, hhrx, hdw, hdx,
    hdrx, hrst⟩ := hs
  simp only [List.flatten_cons, List.flatten_nil, List.append_nil, List.forall_mem_append, List.forall_mem_cons] at hrst
  obtain ⟨hlr, hhwr, ⟨hhr, hgr, -⟩, hdwr, ⟨hdr, -⟩, htr⟩ := hrst
  have hhw' : ∀ p ∈ hdrWait, p.rst = false ∧ p.xDone = false := fun p hp => ⟨hhwr p hp, hhw p hp⟩
  have hdw' : ∀ p ∈ dataWait, p.rst = false ∧ p.xDone = false := fun p hp => ⟨hdwr p hp, hdw p hp⟩
  have hclosing := holdsAlong_toggle
    (s := { s with
      bte := .hold
      dly := s.build.tCsLess1
      rdata := if s.txn.rw then dataDone.xRx else s.rdata
      trace := .x s.txn.secondByte dataDone.xRx :: .x s.txn.headerByte hdrDone.xRx :: .cs0 :: s.trace })
    hq (.inr rfl) rfl ⟨htail, htr⟩ hP
  have hdata := (holdsAlong_exchange
    (s := { s with bte := .data, dly := 0, trace := .x s.txn.headerByte hdrDone.xRx :: .cs0 :: s.trace })
    (State.xReq_of_data hq rfl) hdw' (hP _ rfl rfl)).append (runsThrough_data hq rfl hdw' hdr hdx) hclosing
  have hheader := (holdsAlong_header (s := { s with bte := .hdr, dly := 0, trace := .cs0 :: s.trace })
    hq rfl hhw' hhr hhx hP).append (runsThrough_header hq rfl hhw' hhr hhx hgr) hdata
  have hall := (holdsAlong_toggle hq (.inl hb) hd ⟨hlead, hlr⟩ hP).append
    (runsThrough_opening hq hb hd ⟨hlead, hlr⟩) hheader
  simpa using hall

end Sys2Proof.Machine
end

section
/-! The init sequence: the SoftReset write, then the settle delay (spec/41_self_test.md R98). -/

namespace Sys2Proof.Machine

variable {s : State} {r : Byte × Byte} {ps ws : List Pins}

/-! ### A frame sent, for a known transaction -/

theorem State.frameSent_trace {t : Txn} (h : s.txn = t) : (s.frameSent r).trace = (t.events r).reverse ++ s.trace := by
  rw [← h]
  rfl

theorem State.frameSent_rdata {t : Txn} (h : s.txn = t) : (s.frameSent r).rdata = if t.rw then r.2 else s.rdata := by
  rw [← h]
  rfl

/-! ### The two halves of the sequence, and the whole -/

/-- Neither port of the host offers a handshake (R37, R38). -/
def State.Quiet (s : State) : Prop := s.cmdReady = false ∧ s.rspValid = false

theorem State.quiet_iff : s.Quiet ↔ s.seq ≠ .idle ∧ s.seq ≠ .resp := by
  rw [State.Quiet, ← Bool.not_eq_true, ← Bool.not_eq_true, State.cmdReady_eq_true, State.rspValid_eq_true]

theorem State.quiet_of_seq {q : SeqState} (hq : s.seq = q) (hi : q ≠ .idle) (hr : q ≠ .resp) : s.Quiet :=
  State.quiet_iff.2 ⟨hq ▸ hi, hq ▸ hr⟩

theorem State.edge_of_initWait (hq : s.seq = .initWait) (hb : s.bte ≠ .unused) (hd : s.dly = 0) :
    s.edge = { s with seq := .idle } := by
  have hu : State.recoverBte { s with seq := .idle } = { s with seq := .idle } := State.recoverBte_of_used _ hb
  simp only [State.edge, hq, if_pos hd, hu]

/-- The RAC at the start of the settle, the SoftReset write sent and `r` received. -/
def State.initSettling (s : State) (r : Byte × Byte) : State := (s.frameSent r).settle .initWait

theorem runsThrough_initWrite (hq : s.seq = .initRst) (hb : s.bte = .pre) (hd : s.dly = s.build.tCsLess1)
    (hs : ServesTxn s.build r ps) : RunsThrough ps s (s.initSettling r) := by
  have hend : (s.frameSent r).complete = s.initSettling r := by simp [State.complete, State.frameSent, State.initSettling, hq]
  exact hend ▸ runsThrough_transaction (by rw [hq]; rfl) hb hd hs

/-- R98 as a run: the write, `T_SETTLE` cycles, idle. -/
theorem runsThrough_init (hq : s.seq = .initRst) (hb : s.bte = .pre) (hd : s.dly = s.build.tCsLess1)
    (hs : ServesTxn s.build r ps) (hw : Waits s.build.tSettle ws) :
    RunsThrough (ps ++ ws) s { s.initSettling r with dly := 0, seq := .idle } :=
  (runsThrough_initWrite hq hb hd hs).append
    (runsThrough_settle (.inl rfl) nofun rfl hw (State.edge_of_initWait rfl nofun rfl))

theorem holdsAlong_init (hq : s.seq = .initRst) (hb : s.bte = .pre) (hd : s.dly = s.build.tCsLess1)
    (hs : ServesTxn s.build r ps) (hw : Waits s.build.tSettle ws) : HoldsAlong State.Quiet (ps ++ ws) s := by
  have hwrite : HoldsAlong State.Quiet ps s :=
    holdsAlong_transaction (by rw [hq]; rfl) hb hd hs fun v hv _ => State.quiet_of_seq (hv.trans hq) nofun nofun
  have hsettle : HoldsAlong State.Quiet ws (s.initSettling r) :=
    holdsAlong_delay (.inr ⟨.inl rfl, nofun⟩) rfl hw fun _ => State.quiet_of_seq rfl nofun nofun
  exact hwrite.append (runsThrough_initWrite hq hb hd hs) hsettle

/-- Settles O19: the init run ends in `S_IDLE`, and `S_INIT_RST` and `S_INIT_WAIT`, the states before it, are quiet. -/
theorem initSequenceResetsTheDeviceThenIdles : Obligations.InitSequenceResetsTheDeviceThenIdles := by
  intro s r ps ws rest hq hb hd hs hw hin
  have hin' : s.inputs = ps ++ ws ++ rest := by simpa using hin
  have hlen : ps.length + s.build.tSettle = (ps ++ ws).length := by rw [List.length_append, hw.1]
  have htxn : s.txn = .regWrite 0x01 0x0F := by rw [State.txn, hq]; rfl
  rw [hlen]
  refine ⟨⟨_, (runsThrough_init hq hb hd hs hw).runs hin', rfl, rfl, rfl, State.frameSent_trace htxn, rfl, rfl, rfl,
    State.frameSent_rdata htxn, rfl⟩, fun m hm => ?quiet⟩
  case quiet =>
    obtain ⟨v, p, qs, hrun, hready, hvalid⟩ := (holdsAlong_init hq hb hd hs hw).runs hin' hm
    exact ⟨_, hrun, hready, hvalid⟩

end Sys2Proof.Machine
end

section
/-! Served transactions back to back (spec/40_bus_transactions.md R77). -/

namespace Sys2Proof.Machine

variable {s : State} {r : Byte × Byte} {rs : List (Byte × Byte)} {ps : List Pins} {t : Txn}

/-! ### Consecutive transactions -/

/-- `s` after its transaction, `r` the bytes received: the frame is sent and the sequencer has acted. -/
def State.sent (s : State) (r : Byte × Byte) : State := (s.frameSent r).complete

/-- `s` after as many transactions as there are replies in `rs`. -/
def State.sentAll (s : State) (rs : List (Byte × Byte)) : State := rs.foldl State.sent s

theorem State.sentAll_cons (s : State) (r : Byte × Byte) (rs : List (Byte × Byte)) :
    s.sentAll (r :: rs) = (s.sent r).sentAll rs := rfl

theorem State.sentAll_concat (s : State) (rs : List (Byte × Byte)) (r : Byte × Byte) :
    s.sentAll (rs ++ [r]) = (s.sentAll rs).sent r := by
  rw [State.sentAll, List.foldl_append]
  rfl

theorem State.sent_build (s : State) (r : Byte × Byte) : (s.sent r).build = s.build := State.complete_build _

/-- The first `B_PRE` cycle of a transaction. -/
structure State.AtStart (s : State) : Prop where
  isTxn : s.seq.isTxn = true
  bte : s.bte = .pre
  dly : s.dly = s.build.tCsLess1

/-- A served RAC runs transaction after transaction, as long as the sequencer starts another. -/
theorem runsThrough_sentAll (hs : ServesAll s.build rs ps) (hstart : ∀ n < rs.length, (s.sentAll (rs.take n)).AtStart) :
    RunsThrough ps s (s.sentAll rs) := by
  induction rs generalizing s ps with
  | nil =>
    obtain rfl : ps = [] := hs
    exact .nil s
  | cons r rs ih =>
    obtain ⟨p, q, rfl, hp, hq⟩ := hs
    obtain ⟨ht, hb, hd⟩ : s.AtStart := hstart 0 (Nat.succ_pos _)
    rw [← State.sent_build s r] at hq
    exact (runsThrough_transaction ht hb hd hp).append (ih hq fun n hn => hstart (n + 1) (Nat.succ_lt_succ hn))

theorem holdsAlong_sentAll {P : State → Prop} (hs : ServesAll s.build rs ps)
    (hstart : ∀ n < rs.length, (s.sentAll (rs.take n)).AtStart)
    (hP : ∀ n < rs.length, ∀ v : State, v.seq = (s.sentAll (rs.take n)).seq → P v) : HoldsAlong P ps s := by
  induction rs generalizing s ps with
  | nil =>
    obtain rfl : ps = [] := hs
    exact nofun
  | cons r rs ih =>
    obtain ⟨p, q, rfl, hp, hq⟩ := hs
    obtain ⟨ht, hb, hd⟩ : s.AtStart := hstart 0 (Nat.succ_pos _)
    rw [← State.sent_build s r] at hq
    exact (holdsAlong_transaction ht hb hd hp fun v hv _ => hP 0 (Nat.succ_pos _) v hv).append
      (runsThrough_transaction ht hb hd hp)
      (ih hq (fun n hn => hstart (n + 1) (Nat.succ_lt_succ hn)) fun n hn => hP (n + 1) (Nat.succ_lt_succ hn))

/-! ### The same transaction again and again -/

/-- The bus trace `es` after one transaction `t` for each reply in `rs`. -/
def traceAfter (t : Txn) (rs : List (Byte × Byte)) (es : List BusEvent) : List BusEvent :=
  (eventsOf (List.replicate rs.length t) rs).reverse ++ es

theorem traceAfter_concat (t : Txn) (rs : List (Byte × Byte)) (r : Byte × Byte) (es : List BusEvent) :
    traceAfter t (rs ++ [r]) es = (t.events r).reverse ++ traceAfter t rs es := by
  simp [traceAfter, eventsOf, List.replicate_succ', List.zipWith_append]

/-- Where the sequencer enters a transaction state `q`, the transaction has changed RDATA, if it is a read, and the trace. -/
theorem State.frameSent_enter (hs : s.AtStart) (ht : s.txn = t) (q : SeqState) :
    (s.frameSent r).enter q =
      { s with seq := q, rdata := if t.rw then r.2 else s.rdata, trace := (t.events r).reverse ++ s.trace } := by
  subst ht
  simp only [State.enter, State.frameSent, hs.bte, hs.dly]
  rfl

end Sys2Proof.Machine
end

section
/-! The three loops of the self-test: the dummy writes, the polls and the drain (spec/41_self_test.md R105, R110, R113, R121). Each
is one lemma about a single transaction that loops, one about the transaction that leaves the loop where there is one, and the
induction over the replies. -/

namespace Sys2Proof.Machine

variable {s : State} {r : Byte × Byte} {rs : List (Byte × Byte)}

/-- `CNT` has not reached the value at which its loop ends (R26). -/
theorem ofNat_ne_of_lt {n k : Nat} (hn : n < k) (hk : k < 64) : BitVec.ofNat 6 n ≠ BitVec.ofNat 6 k := by
  rw [Ne, ← BitVec.toNat_inj, BitVec.toNat_ofNat, BitVec.toNat_ofNat]
  omega

/-! ### Step 3, the dummy writes (R105) -/

section
variable (hq : s.seq = .stLoad)
include hq

theorem State.txn_of_stLoad : s.txn = .regWrite 0x09 0x00 := by
  rw [State.txn, hq]
  rfl

theorem State.sent_of_stLoad : s.sent r = (s.frameSent r).loadDone := by
  simp [State.sent, State.complete, State.frameSent, hq]

theorem State.sent_of_stLoad_again (hs : s.AtStart) (hc : s.cnt ≠ 24) :
    s.sent r = { s with cnt := s.cnt + 1, trace := ((Txn.regWrite 0x09 0x00).events r).reverse ++ s.trace } := by
  have hdone : s.sent r = { (s.frameSent r).enter .stLoad with cnt := s.cnt + 1 } := by
    rw [State.sent_of_stLoad hq]
    exact if_neg hc
  rw [hdone, State.frameSent_enter hs (State.txn_of_stLoad hq), ← hq]
  rfl

theorem State.sent_of_stLoad_last (hs : s.AtStart) (hc : s.cnt = 24) :
    s.sent r = { s with seq := .stMem, trace := ((Txn.regWrite 0x09 0x00).events r).reverse ++ s.trace } := by
  have hdone : s.sent r = (s.frameSent r).enter .stMem := by
    rw [State.sent_of_stLoad hq]
    exact if_pos hc
  rw [hdone, State.frameSent_enter hs (State.txn_of_stLoad hq)]
  rfl

/-- Up to 24 dummy writes stay in the loop, `CNT` counting them. -/
theorem State.sentAll_of_stLoad (hs : s.AtStart) (hc : s.cnt = 0) (hlen : rs.length ≤ 24) :
    s.sentAll rs =
      { s with cnt := BitVec.ofNat 6 rs.length, trace := traceAfter (.regWrite 0x09 0x00) rs s.trace } := by
  induction rs using List.reverseRecOn with
  | nil =>
    have hcnt : BitVec.ofNat 6 ([] : List (Byte × Byte)).length = s.cnt := hc.symm
    rw [hcnt]
    rfl
  | append_singleton rs r ih =>
    rw [List.length_append, List.length_singleton] at hlen ⊢
    have hloop := ih (by omega)
    have hagain := State.sent_of_stLoad_again (s := s.sentAll rs) (r := r) (by rw [hloop]; exact hq)
      (by rw [hloop]; exact ⟨hs.isTxn, hs.bte, hs.dly⟩)
      (by rw [hloop]; exact ofNat_ne_of_lt (k := 24) (by omega) (by omega))
    rw [State.sentAll_concat, hagain, hloop, traceAfter_concat, BitVec.ofNat_add]
    rfl

theorem State.sentAll_of_stLoad_last (hs : s.AtStart) (hc : s.cnt = 0) (hlen : rs.length = 24) :
    s.sentAll (rs ++ [r]) =
      { s with seq := .stMem, cnt := 24, trace := traceAfter (.regWrite 0x09 0x00) (rs ++ [r]) s.trace } := by
  have hloop := State.sentAll_of_stLoad hq hs hc hlen.le
  rw [hlen] at hloop
  have hlast := State.sent_of_stLoad_last (s := s.sentAll rs) (r := r) (by rw [hloop]; exact hq)
    (by rw [hloop]; exact ⟨hs.isTxn, hs.bte, hs.dly⟩) (by rw [hloop]; rfl)
  rw [State.sentAll_concat, hlast, hloop, traceAfter_concat]
  rfl

end

/-- Settles O46: `CNT` holds the number of writes done, so the 25th is the one that leaves the loop. -/
theorem loadWritesExactlyTwentyFiveBytes : Obligations.LoadWritesExactlyTwentyFiveBytes := by
  intro s rs ps rest hq hb hd hc hlen hs hin
  have hstart : s.AtStart := ⟨by rw [hq]; rfl, hb, hd⟩
  have hrun : RunsThrough ps s (s.sentAll rs) := runsThrough_sentAll hs fun n hn => by
    rw [State.sentAll_of_stLoad hq hstart hc (by rw [List.length_take]; omega)]
    exact ⟨hstart.isTxn, hb, hd⟩
  obtain rfl | ⟨init, r, rfl⟩ := rs.eq_nil_or_concat'
  · nomatch hlen
  rw [State.sentAll_of_stLoad_last hq hstart hc (by simpa using hlen)] at hrun
  refine ⟨_, hrun.runs hin, rfl, hb, hd, rfl, ?trace, rfl, rfl, rfl, rfl, rfl, rfl, rfl, rfl, rfl⟩
  case trace =>
    rw [← hlen]
    rfl

/-! ### Step 8, the polls (R110, R121) -/

theorem State.boundHit_of_unbounded (h : s.bound = 0) : s.boundHit = false := by
  simp [State.boundHit, h]

theorem levelReached_eq_false {v : Byte} : levelReached v = false ↔ v.toNat < 64 := by
  simp [levelReached]

section
variable (hq : s.seq = .stPoll)
include hq

theorem State.txn_of_stPoll : s.txn = .regRead 0x0A := by
  rw [State.txn, hq]
  rfl

theorem State.sent_of_stPoll : s.sent r = (s.frameSent r).pollDone := by
  simp [State.sent, State.complete, State.frameSent, hq]

/-- A poll below 64 that does not reach the bound leads to the next (R112). -/
theorem State.sent_of_stPoll_again (hs : s.AtStart) (hr : r.2.toNat < 64) (hbound : s.boundHit = false) :
    s.sent r = { s with
      polls := s.pollsNext
      rdata := r.2
      trace := ((Txn.regRead 0x0A).events r).reverse ++ s.trace } := by
  have ht := State.txn_of_stPoll hq
  have hlevel : levelReached (s.frameSent r).rdata = false := by
    rw [State.frameSent_rdata ht]
    exact levelReached_eq_false.2 hr
  have hbound' : (s.frameSent r).boundHit = false := hbound
  have hdone : s.sent r = { (s.frameSent r).enter .stPoll with polls := s.pollsNext } := by
    simp only [State.sent_of_stPoll hq, State.pollDone, hlevel, hbound']
    rfl
  rw [hdone, State.frameSent_enter hs ht, ← hq]
  rfl

/-- However many polls there have been, the next one starts, and CMD is as it was (R121). -/
theorem State.sentAll_of_stPoll (hs : s.AtStart) (hbound : s.bound = 0) (hr : ∀ r ∈ rs, r.2.toNat < 64) :
    ∃ n x, s.sentAll rs = { s with polls := n, rdata := x, trace := traceAfter (.regRead 0x0A) rs s.trace } := by
  induction rs using List.reverseRecOn with
  | nil => exact ⟨_, _, rfl⟩
  | append_singleton rs r ih =>
    rw [List.forall_mem_append, List.forall_mem_singleton] at hr
    obtain ⟨hrs, hr⟩ := hr
    obtain ⟨n, x, hloop⟩ := ih hrs
    have hagain := State.sent_of_stPoll_again (s := s.sentAll rs) (r := r) (by rw [hloop]; exact hq)
      (by rw [hloop]; exact ⟨hs.isTxn, hs.bte, hs.dly⟩) hr (by rw [hloop]; exact State.boundHit_of_unbounded hbound)
    rw [State.sentAll_concat, hagain, hloop, traceAfter_concat]
    exact ⟨_, _, rfl⟩

end

/-- Settles O48: a poll below 64 with no bound starts another, and within each poll SEQ does not change. -/
theorem unboundedPollingNeverEnds : Obligations.UnboundedPollingNeverEnds := by
  intro s rs ps rest hq hb hd hbound hr hs hin
  have hstart : s.AtStart := ⟨by rw [hq]; rfl, hb, hd⟩
  have hloop : ∀ n, ∃ k x, s.sentAll (rs.take n) =
      { s with polls := k, rdata := x, trace := traceAfter (.regRead 0x0A) (rs.take n) s.trace } :=
    fun n => State.sentAll_of_stPoll hq hstart hbound fun r hmem => hr r (List.mem_of_mem_take hmem)
  have hagain : ∀ n < rs.length, (s.sentAll (rs.take n)).AtStart := fun n _ => by
    obtain ⟨k, x, hk⟩ := hloop n
    rw [hk]
    exact ⟨hstart.isTxn, hb, hd⟩
  have hseq : ∀ n < rs.length, ∀ v : State, v.seq = (s.sentAll (rs.take n)).seq → v.seq = .stPoll := fun n _ v hv => by
    obtain ⟨k, x, hk⟩ := hloop n
    rw [hv, hk, hq]
  have hend := (runsThrough_sentAll hs hagain).runs hin
  obtain ⟨k, x, hk⟩ := State.sentAll_of_stPoll hq hstart hbound hr
  rw [hk] at hend
  refine ⟨_, hend, hq, hb, hd, hbound, rfl, rfl, fun m hm => ?_⟩
  have hquiet {v : State} (hv : v.seq = .stPoll) : v.seq = .stPoll ∧ v.Quiet := ⟨hv, State.quiet_of_seq hv nofun nofun⟩
  obtain hlt | rfl := Nat.lt_or_eq_of_le hm
  · obtain ⟨v, p, qs, hrun, hv⟩ := (holdsAlong_sentAll hs hagain hseq).runs hin hlt
    exact ⟨_, hrun, hquiet hv⟩
  · exact ⟨_, hend, hquiet hq⟩

/-! ### Step 9, the drain (R113) -/

/-- Writing entry `i` extends the filled part of a buffer by one. -/
theorem take_toList_set {w : Vector Byte 64} {i : Nat} (hi : i < 64) (x : Byte) :
    (w.set i x hi).toList.take (i + 1) = w.toList.take i ++ [x] := by
  have hlen : i < w.toList.length := by simpa using hi
  rw [Vector.toList_set, List.take_add_one, List.take_set_of_le (le_refl i), List.getElem?_set_self hlen]
  rfl

section
variable (hq : s.seq = .stDrain)
include hq

theorem State.txn_of_stDrain : s.txn = .regRead 0x09 := by
  rw [State.txn, hq]
  rfl

theorem State.sent_of_stDrain : s.sent r = (s.frameSent r).drainDone := by
  simp [State.sent, State.complete, State.frameSent, hq]

theorem State.storeResult_frameSent :
    (s.frameSent r).storeResult = { s.frameSent r with result := s.result.set s.cnt.toNat r.2 s.cnt.isLt } := by
  have hr : (s.frameSent r).rdata = r.2 := State.frameSent_rdata (State.txn_of_stDrain hq)
  rw [← hr]
  rfl

theorem State.sent_of_stDrain_again (hs : s.AtStart) (hc : s.cnt ≠ 63) :
    s.sent r = { s with
      cnt := s.cnt + 1
      rdata := r.2
      result := s.result.set s.cnt.toNat r.2 s.cnt.isLt
      trace := ((Txn.regRead 0x09).events r).reverse ++ s.trace } := by
  have hdone : s.sent r = { (s.frameSent r).enter .stDrain with
      cnt := s.cnt + 1
      result := s.result.set s.cnt.toNat r.2 s.cnt.isLt } := by
    rw [State.sent_of_stDrain hq, State.drainDone, State.storeResult_frameSent hq]
    exact if_neg hc
  rw [hdone, State.frameSent_enter hs (State.txn_of_stDrain hq), ← hq]
  rfl

theorem State.sent_of_stDrain_last (hs : s.AtStart) (hc : s.cnt = 63) :
    s.sent r = { s with
      seq := .stDisarm
      rdata := r.2
      result := s.result.set s.cnt.toNat r.2 s.cnt.isLt
      trace := ((Txn.regRead 0x09).events r).reverse ++ s.trace } := by
  have hdone : s.sent r = { (s.frameSent r).enter .stDisarm with
      result := s.result.set s.cnt.toNat r.2 s.cnt.isLt } := by
    rw [State.sent_of_stDrain hq, State.drainDone, State.storeResult_frameSent hq]
    exact if_pos hc
  rw [hdone, State.frameSent_enter hs (State.txn_of_stDrain hq)]
  rfl

/-- Up to 63 reads stay in the loop, `CNT` counting them and the bytes received filling RESULT from the front. -/
theorem State.sentAll_of_stDrain (hs : s.AtStart) (hc : s.cnt = 0) (hlen : rs.length ≤ 63) :
    ∃ x w, s.sentAll rs = { s with
        cnt := BitVec.ofNat 6 rs.length
        rdata := x
        result := w
        trace := traceAfter (.regRead 0x09) rs s.trace } ∧
      w.toList.take rs.length = rs.map Prod.snd := by
  induction rs using List.reverseRecOn with
  | nil =>
    have hcnt : BitVec.ofNat 6 ([] : List (Byte × Byte)).length = s.cnt := hc.symm
    rw [hcnt]
    exact ⟨_, _, rfl, rfl⟩
  | append_singleton rs r ih =>
    rw [List.length_append, List.length_singleton] at hlen ⊢
    obtain ⟨x, w, hloop, hw⟩ := ih (by omega)
    have hagain := State.sent_of_stDrain_again (s := s.sentAll rs) (r := r) (by rw [hloop]; exact hq)
      (by rw [hloop]; exact ⟨hs.isTxn, hs.bte, hs.dly⟩)
      (by rw [hloop]; exact ofNat_ne_of_lt (k := 63) (by omega) (by omega))
    rw [State.sentAll_concat, hagain, traceAfter_concat, BitVec.ofNat_add]
    have hi : (BitVec.ofNat 6 rs.length).toNat = rs.length := Nat.mod_eq_of_lt (by omega)
    simp only [hloop, hi]
    refine ⟨_, _, rfl, ?_⟩
    rw [take_toList_set, hw, List.map_append]
    rfl

theorem State.sentAll_of_stDrain_last (hs : s.AtStart) (hc : s.cnt = 0) (hlen : rs.length = 63) :
    ∃ w, s.sentAll (rs ++ [r]) = { s with
        seq := .stDisarm
        cnt := 63
        rdata := r.2
        result := w
        trace := traceAfter (.regRead 0x09) (rs ++ [r]) s.trace } ∧
      w.toList = (rs ++ [r]).map Prod.snd := by
  obtain ⟨x, w, hloop, hw⟩ := State.sentAll_of_stDrain hq hs hc hlen.le
  rw [hlen] at hloop hw
  have hlast := State.sent_of_stDrain_last (s := s.sentAll rs) (r := r) (by rw [hloop]; exact hq)
    (by rw [hloop]; exact ⟨hs.isTxn, hs.bte, hs.dly⟩) (by rw [hloop]; rfl)
  have hset := take_toList_set (w := w) (i := 63) (by decide) r.2
  rw [hw, List.take_of_length_le (by simp)] at hset
  rw [State.sentAll_concat, hlast, traceAfter_concat]
  simp only [hloop]
  exact ⟨_, rfl, by rw [List.map_append]; exact hset⟩

end

/-- Settles O49: after each read the entries of RESULT below `CNT` are the bytes received so far. -/
theorem drainFillsTheResultInOrder : Obligations.DrainFillsTheResultInOrder := by
  intro s rs ps rest hq hb hd hc hlen hs hin
  have hstart : s.AtStart := ⟨by rw [hq]; rfl, hb, hd⟩
  have hrun : RunsThrough ps s (s.sentAll rs) := runsThrough_sentAll hs fun n hn => by
    obtain ⟨x, w, hloop, -⟩ := State.sentAll_of_stDrain (rs := rs.take n) hq hstart hc (by rw [List.length_take]; omega)
    rw [hloop]
    exact ⟨hstart.isTxn, hb, hd⟩
  obtain rfl | ⟨init, r, rfl⟩ := rs.eq_nil_or_concat'
  · nomatch hlen
  obtain ⟨w, hend, hw⟩ := State.sentAll_of_stDrain_last (rs := init) (r := r) hq hstart hc (by simpa using hlen)
  rw [hend] at hrun
  refine ⟨_, hrun.runs hin, rfl, hb, hd, rfl, hw, ?trace, rfl, rfl, rfl, rfl, rfl, rfl, rfl⟩
  case trace =>
    rw [← hlen]
    rfl

end Sys2Proof.Machine
end

section
/-! Each input port is read in one state only, and a reserved command word is answered off the bus (spec/60_exceptions.md R128,
R134). -/

namespace Sys2Proof

/-- The reserved words are those with both `op` bits set (R67). -/
theorem opField_eq_reserved {w : CmdWord} (h15 : w.getLsbD 15 = true) (h14 : w.getLsbD 14 = true) : opField w = 0b11#2 := by
  apply BitVec.eq_of_getLsbD_eq
  intro i hi
  interval_cases i
  · simpa [opField] using h14
  · simpa [opField] using h15

end Sys2Proof

namespace Sys2Proof.Machine

/-- Outside the transaction states chip-select is high and no exchange is requested, whatever the engine holds (R34, R35). -/
theorem State.bus_idle_of_not_isTxn {s : State} (h : s.seq.isTxn = false) : s.csN = true ∧ s.xReq = false := by
  simp [State.csN, State.xReq, h]

/-- Settles O32: such offers agree wherever a port is read, and then the two next states differ in the sampled ports alone. -/
theorem eachInputIsReadInOneStateOnly : Obligations.EachInputIsReadInOneStateOnly := by
  intro s p q rest hrst hcommand hresponse hexchange
  have hagree : AgreeWhereRead s p q := ⟨hrst, hcommand, hresponse, hexchange⟩
  obtain ⟨v, ht, hu⟩ := step_of_agreeWhereRead hagree rest
  exact ⟨v.withPorts p rest, v.withPorts q rest, ht, hu, rfl⟩

/-- Settles O23: a word with both `op` bits set is dispatched to the reserved word's meaning, and neither `S_IDLE` nor `S_RESP` is a
transaction state. -/
theorem reservedWordRespondsIllegalWithoutBusActivity : Obligations.ReservedWordRespondsIllegalWithoutBusActivity := by
  refine ⟨fun s w _ => rfl, ?step⟩
  intro s hq hb hr hv h15 h14
  obtain ⟨-, -, -, hreserved⟩ := idleEdgeAcceptsAndDispatches s hq hb hr
  have hidle : s.seq.isTxn = false := by rw [hq]; rfl
  exact ⟨_, hreserved hv (opField_eq_reserved h15 h14), rfl, (State.bus_idle_of_not_isTxn hidle).1,
    (State.bus_idle_of_not_isTxn rfl).1, (State.bus_idle_of_not_isTxn rfl).2, State.rspValid_eq_true.2 rfl⟩

end Sys2Proof.Machine
end

section
/-! What a reset edge leaves in the registers and on the output ports (spec/70_reset_and_hazards.md R144, R145). -/

namespace Sys2Proof.Machine

variable {s : State}

/-- `rst` overrides everything: the edge is the reset edge, whatever the state and the other ports (R144). -/
theorem step_of_rst (h : s.sample.pins.rst = true) : step s = .next s.sample.resetEdge := stepSampled_of_rst h

namespace State

/-! ### The output ports after it: none reads a register that reset leaves alone (R145) -/

@[simp] theorem resetEdge_csN : s.resetEdge.csN = true := rfl
@[simp] theorem resetEdge_xReq : s.resetEdge.xReq = false := rfl
@[simp] theorem resetEdge_xTx : s.resetEdge.xTx = 0x00 := rfl
@[simp] theorem resetEdge_cmdReady : s.resetEdge.cmdReady = false := rfl
@[simp] theorem resetEdge_rspValid : s.resetEdge.rspValid = false := rfl
@[simp] theorem resetEdge_rspStatusPort : s.resetEdge.rspStatusPort = 0b00 := rfl
@[simp] theorem resetEdge_rspDataPort : s.resetEdge.rspDataPort = 0x00 := rfl

end State

/-- Settles O16: the next state is that of the reset edge, whose values do not depend on the ports sampled. -/
theorem resetEdgeLoadsTheResetValues : Obligations.ResetEdgeLoadsTheResetValues := by
  intro s hr
  refine ⟨_, step_of_rst hr, ?_⟩
  simp [Build.tCs, Status.code]

end Sys2Proof.Machine
end

section
/-! A response is offered until the host takes it, and a host that keeps its duty does take it
(spec/70_reset_and_hazards.md R163). -/

namespace Sys2Proof

/-- What is kept until `done`, and cannot be kept for ever without `done`, is kept up to a first `done`. -/
theorem exists_done_of_kept_until {P : Nat → Prop} {done : Nat → Bool} {n : Nat} (hn : P n)
    (hkeep : ∀ m ≥ n, P m → done m = false → P (m + 1)) (hfair : (∀ m ≥ n, P m) → ∃ m ≥ n, done m = true) :
    ∃ m ≥ n, done m = true ∧ ∀ k, n ≤ k → k ≤ m → P k := by
  have hkept : ∀ m ≥ n, (∀ k, n ≤ k → k < m → done k = false) → P m := by
    intro m hm
    induction m, hm using Nat.le_induction with
    | base => exact fun _ => hn
    | succ m hm ih =>
      intro hnot
      exact hkeep m hm (ih fun k hk hlt => hnot k hk (hlt.trans m.lt_succ_self)) (hnot m hm m.lt_succ_self)
  have hex : ∃ m ≥ n, done m = true := by
    by_contra hno
    exact hno (hfair fun m hm => hkept m hm fun k hk _ => Bool.eq_false_iff.2 fun hd => hno ⟨k, hk, hd⟩)
  obtain ⟨hge, hdone⟩ := Nat.find_spec hex
  refine ⟨Nat.find hex, hge, hdone, fun k hk hle => hkept k hk fun j hj hlt => Bool.eq_false_iff.2 fun hd => ?_⟩
  exact Nat.find_min hex (hlt.trans_le hle) ⟨hj, hd⟩

end Sys2Proof

namespace Sys2Proof.Machine

/-- The response `(st, d)` is offered (R38). -/
structure State.Offers (s : State) (st : Status) (d : Byte) : Prop where
  seq : s.seq = .resp
  status : s.rspStatus = st
  data : s.rspData = d

variable {s t : State} {st : Status} {d : Byte} {p : Pins} {ps : List Pins}

theorem State.offers_of_rspValid (h : s.rspValid = true) : s.Offers s.rspStatus s.rspData :=
  ⟨State.rspValid_eq_true.1 h, rfl, rfl⟩

theorem State.Offers.rspValid (h : s.Offers st d) : s.rspValid = true := State.rspValid_eq_true.2 h.seq

/-- No command is accepted meanwhile (R37). -/
theorem State.Offers.cmdReady (h : s.Offers st d) : s.cmdReady = false := by
  simp [State.cmdReady, h.seq]

theorem State.Offers.rspStatusPort (h : s.Offers st d) : s.rspStatusPort = st.code := congrArg Status.code h.status

theorem State.Offers.rspDataPort (h : s.Offers st d) : s.rspDataPort = d := h.data

/-- In `S_RESP` no word is fetched, so the edge takes the response or holds it, `BTE` code 7 recovering beside it. -/
theorem step_of_resp (hq : s.seq = .resp) (hr : s.sample.pins.rst = false) :
    step s = .next s.sample.takeResponse.recoverBte := by
  rw [← s.sample_seq] at hq
  rw [step, stepSampled_of_not_isTxn hr (by rw [hq]; rfl) (by rw [hq]; nofun), State.edge, hq]

/-- A response taken leaves the RAC idle (R117). -/
theorem State.Offers.step_ready (h : s.Offers st d) (hr : p.rst = false) (hready : p.rspReady = true)
    (hs : step { s with inputs := p :: ps } = .next t) : t.seq = .idle := by
  rw [step_of_resp (s := { s with inputs := p :: ps }) h.seq hr, State.takeResponse_of_ready _ hready] at hs
  cases hs
  exact State.recoverBte_seq _

/-- A response not taken is offered again (R137). -/
theorem State.Offers.step_not_ready (h : s.Offers st d) (hr : p.rst = false) (hready : p.rspReady = false)
    (hs : step { s with inputs := p :: ps } = .next t) : t.Offers st d := by
  rw [step_of_resp (s := { s with inputs := p :: ps }) h.seq hr, State.takeResponse_of_not_ready _ hready] at hs
  cases hs
  exact ⟨by simp [h.seq], by simp [h.status], by simp [h.data]⟩

/-- Settles O36: the response offered at `n` is kept at every edge that does not take it, and the duty forbids keeping it for ever;
the first edge that takes it leaves the RAC idle. -/
theorem fairHostTakesEveryResponse : Obligations.FairHostTakesEveryResponse := by
  intro f σ n hdrives hduty hrst hvalid
  have hkeep (m) (hm : m ≥ n) (h : (σ m).Offers (σ n).rspStatus (σ n).rspData) (hready : (f m).rspReady = false) :
      (σ (m + 1)).Offers (σ n).rspStatus (σ n).rspData := h.step_not_ready (hrst m hm) hready (hdrives m)
  have hfair (hheld : ∀ m ≥ n, (σ m).Offers (σ n).rspStatus (σ n).rspData) : ∃ m ≥ n, (f m).rspReady = true := by
    obtain ⟨m, hm, hgone | hready⟩ := hduty n hvalid
    · simp [(hheld m hm).rspValid] at hgone
    · exact ⟨m, hm, hready⟩
  obtain ⟨m, hm, hready, hheld⟩ := exists_done_of_kept_until (State.offers_of_rspValid hvalid) hkeep hfair
  have hidle : (σ (m + 1)).seq = .idle := (hheld m hm le_rfl).step_ready (hrst m hm) hready (hdrives m)
  refine ⟨m, hm, hready, State.cmdReady_eq_true.2 hidle, by simp [State.rspValid, hidle], fun k hk hle => ?_⟩
  have h := hheld k hk hle
  exact ⟨h.rspValid, h.cmdReady, h.rspStatusPort, h.rspDataPort⟩

end Sys2Proof.Machine
end

section
/-! The decoder and the encoder are inverse to each other (spec/30_encoding.md R62, R63, R68, R70). -/

namespace Sys2Proof

open Machine

variable {w : CmdWord}

/-! ### The decoder, by `op` (R63) -/

theorem opField_cases (w : CmdWord) :
    opField w = 0b00#2 ∨ opField w = 0b01#2 ∨ opField w = 0b10#2 ∨ opField w = 0b11#2 := by
  generalize opField w = q
  revert q
  decide

theorem decodeCommand_of_op_write (h : opField w = 0b00#2) : decodeCommand w = .writeReg (addrField w) (dataField w) := by
  simp [decodeCommand, h]

theorem decodeCommand_of_op_read (h : opField w = 0b01#2) : decodeCommand w = .readReg (addrField w) (dataField w) := by
  simp [decodeCommand, h]

theorem decodeCommand_of_op_selfTest (h : opField w = 0b10#2) : decodeCommand w = .selfTest (boundField w) := by
  simp [decodeCommand, h]

theorem decodeCommand_of_op_reserved (h : opField w = 0b11#2) : decodeCommand w = .illegal w := by
  simp [decodeCommand, h]

/-! ### The fields of an encoded word -/

theorem opField_append (op : BitVec 2) (a : Addr) (d : Byte) : opField (op ++ a ++ d) = op := by
  rw [opField, BitVec.extractLsb'_append_eq_of_le (by decide : 8 ≤ 14)]
  exact BitVec.extractLsb'_append_eq_left

theorem opField_append_bound (op : BitVec 2) (b : Bound) : opField (op ++ b) = op := BitVec.extractLsb'_append_eq_left

theorem boundField_append (op : BitVec 2) (b : Bound) : boundField (op ++ b) = b := BitVec.extractLsb'_append_eq_right

/-- The words `ILLEGAL` may spell are those with `op` 0b11 (R67, R75). -/
theorem wellFormed_illegal_iff : (Instr.illegal w).wellFormed = true ↔ opField w = 0b11#2 := by
  have h15 : w.getLsbD 15 = (opField w).getLsbD 1 := by simp [opField]
  have h14 : w.getLsbD 14 = (opField w).getLsbD 0 := by simp [opField]
  rw [Instr.wellFormed, h15, h14]
  generalize opField w = q
  revert q
  decide

/-- A header byte is made of its mode bit, its address field and a zero (R70). -/
theorem hdr_fields {b : Byte} (h : b.getLsbD 0 = false) : hdr (b.getLsbD 7) (hdrAddr b) = b := by
  apply BitVec.eq_of_getLsbD_eq
  intro i hi
  interval_cases i <;> simp only [hdr, hdrAddr, BitVec.getLsbD_append, h] <;> simp

/-- Settles O2: the fields of an encoded word are the operands it was made from. -/
theorem encodedInstructionDecodesToItself : Obligations.EncodedInstructionDecodesToItself := by
  intro i hi
  cases i with
  | writeReg a d =>
    have h := decodeCommand_of_op_write (opField_append 0b00#2 a d)
    rw [addrField_append, dataField_append] at h
    exact congrArg _ h
  | readReg a x =>
    have h := decodeCommand_of_op_read (opField_append 0b01#2 a x)
    rw [addrField_append, dataField_append] at h
    exact congrArg _ h
  | selfTest b =>
    have h := decodeCommand_of_op_selfTest (opField_append_bound 0b10#2 b)
    rw [boundField_append] at h
    exact congrArg _ h
  | illegal w => exact congrArg _ (decodeCommand_of_op_reserved (wellFormed_illegal_iff.1 hi))
  | spiWrHdr a => exact decodeHeader_hdr false a
  | spiRdHdr a => exact decodeHeader_hdr true a

/-- A command word is the encoding of what it decodes to, and that is well formed. -/
theorem encode_decodeCommand (w : CmdWord) :
    encode (decodeCommand w) = .command w ∧ (decodeCommand w).wellFormed = true := by
  obtain h | h | h | h := opField_cases w
  · rw [decodeCommand_of_op_write h]
    exact ⟨congrArg _ (writeRegWord_fields h), rfl⟩
  · rw [decodeCommand_of_op_read h]
    exact ⟨congrArg _ (readRegWord_fields h), rfl⟩
  · rw [decodeCommand_of_op_selfTest h]
    exact ⟨congrArg _ (selfTestWord_boundField h), rfl⟩
  · rw [decodeCommand_of_op_reserved h]
    exact ⟨rfl, wellFormed_illegal_iff.2 h⟩

/-- What the header decoder can answer, with the mode bit that decides it (R70). -/
theorem decodeHeader_cases (b : Byte) :
    (b.getLsbD 0 = true ∧ decodeHeader b = .error .headerBitZeroSet) ∨
    (b.getLsbD 0 = false ∧ b = hdr true (hdrAddr b) ∧ decodeHeader b = .ok (.spiRdHdr (hdrAddr b))) ∨
    (b.getLsbD 0 = false ∧ b = hdr false (hdrAddr b) ∧ decodeHeader b = .ok (.spiWrHdr (hdrAddr b))) := by
  cases h0 : b.getLsbD 0
  · have hb := hdr_fields h0
    right
    cases h7 : b.getLsbD 7 <;> rw [h7] at hb
    · exact .inr ⟨rfl, hb.symm, by simp only [decodeHeader, h0, h7, Bool.false_eq_true, if_false]⟩
    · exact .inl ⟨rfl, hb.symm, by simp only [decodeHeader, h0, h7, Bool.false_eq_true, if_false, if_true]⟩
  · exact .inl ⟨rfl, if_pos h0⟩

/-- Settles O3: a command word by its `op`, a header byte by its mode bit. -/
theorem decodedWordEncodesBack : Obligations.DecodedWordEncodesBack := by
  intro w i h
  cases w with
  | command w =>
    cases h
    exact encode_decodeCommand w
  | header b =>
    rw [decode] at h
    obtain ⟨-, hd⟩ | ⟨-, hb, hd⟩ | ⟨-, hb, hd⟩ := decodeHeader_cases b <;> rw [hd] at h
    · nomatch h
    · cases h
      exact ⟨congrArg _ hb.symm, rfl⟩
    · cases h
      exact ⟨congrArg _ hb.symm, rfl⟩

/-! ### The word as a number (R62) -/

/-- Masking with 0xC000 keeps `op` and clears the rest. -/
theorem and_opMask (w : CmdWord) : w &&& 0xC000 = opField w ++ 0#14 :=
  calc w &&& 0xC000
      = (opField w ++ boundField w) &&& (0b11#2 ++ 0#14) := by rw [opField_append_boundField]; rfl
    _ = (opField w &&& 0b11#2) ++ (boundField w &&& 0#14) := BitVec.and_append
    _ = opField w ++ 0#14 := by rw [BitVec.and_zero]; exact congrArg (· ++ 0#14) BitVec.and_allOnes

theorem opField_of_and_opMask {q : BitVec 2} (h : w &&& 0xC000 = q ++ 0#14) : opField w = q := by
  rw [and_opMask] at h
  rw [← opField_append_bound (opField w) 0#14, h, opField_append_bound]

theorem toNat_opField (w : CmdWord) : (opField w).toNat = w.toNat / 16384 := by
  have hw : w.toNat < 65536 := w.isLt
  rw [opField, BitVec.extractLsb'_toNat, Nat.shiftRight_eq_div_pow]
  omega

theorem toNat_addrField (w : CmdWord) : (addrField w).toNat = w.toNat / 256 % 64 := by
  rw [addrField, BitVec.extractLsb'_toNat, Nat.shiftRight_eq_div_pow]

theorem toNat_dataField (w : CmdWord) : (dataField w).toNat = w.toNat % 256 := by
  rw [dataField, BitVec.extractLsb'_toNat, Nat.shiftRight_zero]

theorem toNat_boundField (w : CmdWord) : (boundField w).toNat = w.toNat % 16384 := by
  rw [boundField, BitVec.extractLsb'_toNat, Nat.shiftRight_zero]

/-- Settles O4: the mask gives `op`, and `op` the row; the fields are quotients and remainders of the word. -/
theorem opFieldAloneSelectsTheCommand : Obligations.OpFieldAloneSelectsTheCommand := by
  intro w
  refine ⟨fun h => ?write, fun h => ?read, fun h => ?selfTest, fun h => ?reserved, ?cover⟩
  case write =>
    exact ⟨_, _, congrArg _ (decodeCommand_of_op_write (opField_of_and_opMask h)), toNat_addrField w, toNat_dataField w⟩
  case read =>
    exact ⟨_, _, congrArg _ (decodeCommand_of_op_read (opField_of_and_opMask h)), toNat_addrField w, toNat_dataField w⟩
  case selfTest =>
    exact ⟨_, congrArg _ (decodeCommand_of_op_selfTest (opField_of_and_opMask h)), toNat_boundField w⟩
  case reserved => exact congrArg _ (decodeCommand_of_op_reserved (opField_of_and_opMask h))
  case cover =>
    rw [and_opMask]
    obtain h | h | h | h := opField_cases w <;> simp [h]

end Sys2Proof
end

section
/-! Everything one edge can do, as rules: each with its guard and the state it leads to (spec/41_self_test.md R124,
spec/40_bus_transactions.md R78 to R85, spec/70_reset_and_hazards.md R144). `stepSampled_eq_next_iff` ties them to the machine;
what an edge changes is then a case analysis over the rules. -/

namespace Sys2Proof.Machine

variable {s t : State}

/-! ### The completion edge -/

/-- The writes of the self-test that lead to the next write or poll whatever the registers hold (R106 to R109). -/
inductive FixedNext : SeqState → SeqState → Prop
  | afterMem : FixedNext .stMem .stArm
  | afterArm : FixedNext .stArm .stSeed
  | afterSeed : FixedNext .stSeed .stCalc
  | afterCalc : FixedNext .stCalc .stPoll

/-- What the sequencer does at the completion edge of a transaction (R124). -/
inductive CompletionRule (s : State) : State → Prop
  | initReset (hq : s.seq = .initRst) : CompletionRule s (s.settle .initWait)
  | host (hq : s.seq = .host) : CompletionRule s s.hostDone
  | testReset (hq : s.seq = .stRst) : CompletionRule s (s.settle .stWait)
  | flush (hq : s.seq = .stFlush) : CompletionRule s ({ s with cnt := 0 }.enter .stLoad)
  | loadNext (hq : s.seq = .stLoad) (hc : s.cnt ≠ 24) : CompletionRule s ({ s with cnt := s.cnt + 1 }.enter .stLoad)
  | loadLast (hq : s.seq = .stLoad) (hc : s.cnt = 24) : CompletionRule s (s.enter .stMem)
  | fixed {p q : SeqState} (hq : s.seq = p) (hn : FixedNext p q) : CompletionRule s (s.enter q)
  | pollReady (hq : s.seq = .stPoll) (hl : levelReached s.rdata = true) :
      CompletionRule s ({ s with polls := s.pollsNext, cnt := 0 }.enter .stDrain)
  | pollTimesOut (hq : s.seq = .stPoll) (hl : levelReached s.rdata = false) (hh : s.boundHit = true) :
      CompletionRule s ({ s with polls := s.pollsNext, toFlag := true }.enter .stDisarm)
  | pollAgain (hq : s.seq = .stPoll) (hl : levelReached s.rdata = false) (hh : s.boundHit = false) :
      CompletionRule s ({ s with polls := s.pollsNext }.enter .stPoll)
  | drainNext (hq : s.seq = .stDrain) (hc : s.cnt ≠ 63) :
      CompletionRule s ({ s.storeResult with cnt := s.cnt + 1 }.enter .stDrain)
  | drainLast (hq : s.seq = .stDrain) (hc : s.cnt = 63) : CompletionRule s (s.storeResult.enter .stDisarm)
  | disarmTimesOut (hq : s.seq = .stDisarm) (hto : s.toFlag = true) : CompletionRule s (s.respond .timeout 0x00)
  | disarmCompares (hq : s.seq = .stDisarm) (hto : s.toFlag = false) : CompletionRule s { s with seq := .stVerify }

theorem CompletionRule.complete (h : CompletionRule s t) : s.complete = t := by
  cases h with
  | fixed hq hn => cases hn <;> simp [State.complete, hq]
  | loadNext hq hc =>
    have h : s.complete = s.loadDone := by simp [State.complete, hq]
    exact h.trans (if_neg hc)
  | loadLast hq hc => simp [State.complete, hq, State.loadDone, hc]
  | pollReady hq hl => simp [State.complete, hq, State.pollDone, hl]
  | pollTimesOut hq hl hh => simp [State.complete, hq, State.pollDone, hl, hh]
  | pollAgain hq hl hh => simp [State.complete, hq, State.pollDone, hl, hh]
  | drainNext hq hc =>
    have h : s.complete = s.drainDone := by simp [State.complete, hq]
    exact h.trans (if_neg hc)
  | drainLast hq hc => simp [State.complete, hq, State.drainDone, hc]
  | disarmTimesOut hq hto => simp [State.complete, hq, State.disarmDone, hto]
  | disarmCompares hq hto => simp [State.complete, hq, State.disarmDone, hto]
  | _ hq => simp [State.complete, hq]

/-- Every transaction state has its rule. -/
theorem exists_completionRule (ht : s.seq.isTxn = true) : ∃ t, CompletionRule s t := by
  cases hq : s.seq
  case initRst => exact ⟨_, .initReset hq⟩
  case host => exact ⟨_, .host hq⟩
  case stRst => exact ⟨_, .testReset hq⟩
  case stFlush => exact ⟨_, .flush hq⟩
  case stLoad =>
    obtain ⟨hc, -⟩ | ⟨hc, -⟩ := s.loadDone_cases
    · exact ⟨_, .loadLast hq hc⟩
    · exact ⟨_, .loadNext hq hc⟩
  case stMem => exact ⟨_, .fixed hq .afterMem⟩
  case stArm => exact ⟨_, .fixed hq .afterArm⟩
  case stSeed => exact ⟨_, .fixed hq .afterSeed⟩
  case stCalc => exact ⟨_, .fixed hq .afterCalc⟩
  case stPoll =>
    obtain ⟨hl, -⟩ | ⟨hl, hh, -⟩ | ⟨hl, hh, -⟩ := s.pollDone_cases
    · exact ⟨_, .pollReady hq hl⟩
    · exact ⟨_, .pollTimesOut hq hl hh⟩
    · exact ⟨_, .pollAgain hq hl hh⟩
  case stDrain =>
    obtain ⟨hc, -⟩ | ⟨hc, -⟩ := s.drainDone_cases
    · exact ⟨_, .drainLast hq hc⟩
    · exact ⟨_, .drainNext hq hc⟩
  case stDisarm =>
    obtain ⟨hto, -⟩ | ⟨hto, -⟩ := s.disarmDone_cases
    · exact ⟨_, .disarmTimesOut hq hto⟩
    · exact ⟨_, .disarmCompares hq hto⟩
  all_goals simp [hq, SeqState.isTxn] at ht

/-! ### The edge -/

/-- Everything an edge can do, ports sampled. -/
inductive EdgeRule (s : State) : State → Prop
  | reset (hr : s.pins.rst = true) : EdgeRule s s.resetEdge
  | acceptRegister (hr : s.pins.rst = false) (hq : s.seq = .idle) (hv : s.pins.cmdValid = true)
      (hop : opField s.pins.cmdWord = 0b00#2 ∨ opField s.pins.cmdWord = 0b01#2) :
      EdgeRule s ((s.accept s.pins.cmdWord).enter .host)
  | acceptSelfTest (hr : s.pins.rst = false) (hq : s.seq = .idle) (hv : s.pins.cmdValid = true)
      (hop : opField s.pins.cmdWord = 0b10#2) :
      EdgeRule s ({ s.accept s.pins.cmdWord with polls := 0, toFlag := false }.enter .stRst)
  | acceptReserved (hr : s.pins.rst = false) (hq : s.seq = .idle) (hv : s.pins.cmdValid = true)
      (hop : opField s.pins.cmdWord = 0b11#2) :
      EdgeRule s ((s.recoverBte.accept s.pins.cmdWord).respond .illegal 0x00)
  | headerDone (hr : s.pins.rst = false) (ht : s.seq.isTxn = true) (hb : s.bte = .hdr) (hx : s.pins.xDone = true) :
      EdgeRule s (s.endHeader s.txn.headerByte)
  | windowOpens (hr : s.pins.rst = false) (ht : s.seq.isTxn = true) (hb : s.bte = .pre) (hd : s.dly = 0) :
      EdgeRule s ({ s with bte := .setup, dly := s.build.tCsLess1 }.record .cs0)
  | setupEnds (hr : s.pins.rst = false) (ht : s.seq.isTxn = true) (hb : s.bte = .setup) (hd : s.dly = 0) :
      EdgeRule s { s with bte := .hdr }
  | exchangeWaits (hr : s.pins.rst = false) (ht : s.seq.isTxn = true) (hb : s.bte = .hdr ∨ s.bte = .data)
      (hx : s.pins.xDone = false) : EdgeRule s s
  | gapEnds (hr : s.pins.rst = false) (ht : s.seq.isTxn = true) (hb : s.bte = .gap) : EdgeRule s { s with bte := .data }
  | dataDone (hr : s.pins.rst = false) (ht : s.seq.isTxn = true) (hb : s.bte = .data) (hx : s.pins.xDone = true) :
      EdgeRule s s.endData
  | windowCloses (hr : s.pins.rst = false) (ht : s.seq.isTxn = true) (hb : s.bte = .hold) (hd : s.dly = 0) :
      EdgeRule s ({ s with bte := .post, dly := s.build.tCsLess1 }.record .cs1)
  | completes (hr : s.pins.rst = false) (ht : s.seq.isTxn = true) (hb : s.bte = .post) (hd : s.dly = 0) (t : State)
      (h : CompletionRule s t) : EdgeRule s t
  | delayCounts (hr : s.pins.rst = false) (ht : s.seq.isTxn = true)
      (hb : s.bte = .pre ∨ s.bte = .setup ∨ s.bte = .hold ∨ s.bte = .post) (hd : s.dly ≠ 0) : EdgeRule s s.countDown
  | engineRecovers (hr : s.pins.rst = false) (ht : s.seq.isTxn = true) (hb : s.bte = .unused) : EdgeRule s s.recoverBte
  | settleCounts (hr : s.pins.rst = false) (hq : s.seq = .initWait ∨ s.seq = .stWait) (hd : s.dly ≠ 0) :
      EdgeRule s s.countDown.recoverBte
  | initSettled (hr : s.pins.rst = false) (hq : s.seq = .initWait) (hd : s.dly = 0) :
      EdgeRule s (State.recoverBte { s with seq := .idle })
  | testSettled (hr : s.pins.rst = false) (hq : s.seq = .stWait) (hd : s.dly = 0) : EdgeRule s (s.enter .stFlush)
  | idles (hr : s.pins.rst = false) (hq : s.seq = .idle) (hv : s.pins.cmdValid = false) : EdgeRule s s.recoverBte
  | compares (hr : s.pins.rst = false) (hq : s.seq = .stVerify) : EdgeRule s s.verify.recoverBte
  | responseTaken (hr : s.pins.rst = false) (hq : s.seq = .resp) (hy : s.pins.rspReady = true) :
      EdgeRule s (State.recoverBte { s with seq := .idle })
  | responseHeld (hr : s.pins.rst = false) (hq : s.seq = .resp) (hy : s.pins.rspReady = false) : EdgeRule s s.recoverBte
  | seqRecovers (k : Fin 15) (hr : s.pins.rst = false) (hq : s.seq = .unused k) : EdgeRule s (s.enter .initRst)

/-- Entering a transaction state sets what the recovery would have set. -/
theorem State.recoverBte_enter (s : State) (q : SeqState) : s.recoverBte.enter q = s.enter q := by
  unfold State.recoverBte
  split <;> rfl

theorem State.accept_recoverBte (s : State) (w : CmdWord) : s.recoverBte.accept w = (s.accept w).recoverBte := by
  unfold State.recoverBte
  split <;> simp_all [State.accept]

/-- The acceptance of a SELF_TEST begins its transaction whatever the engine held. -/
theorem State.acceptSelfTest_recoverBte (s : State) (w : CmdWord) :
    State.enter { s.recoverBte.accept w with polls := 0, toFlag := false } .stRst =
      State.enter { s.accept w with polls := 0, toFlag := false } .stRst := by
  unfold State.recoverBte
  split <;> rfl

theorem stepSampled_of_completes (hr : s.pins.rst = false) (ht : s.seq.isTxn = true) (hb : s.bte = .post) (hd : s.dly = 0) :
    stepSampled s = .next s.complete := by
  rw [stepSampled_of_isTxn hr ht (by simp [hb]), State.txnEdge_of_post hb hd]

/-- Each rule is what the machine does under its guard. -/
theorem EdgeRule.stepSampled (h : EdgeRule s t) : stepSampled s = .next t := by
  have hengine (hr : s.pins.rst = false) (ht : s.seq.isTxn = true) (hb : s.bte ≠ .hdr) :
      Machine.stepSampled s = .next s.txnEdge := stepSampled_of_isTxn hr ht fun ⟨hh, _⟩ => hb hh
  have hidle (hr : s.pins.rst = false) (ht : s.seq.isTxn = false) (hq : s.seq ≠ .idle) :
      Machine.stepSampled s = .next s.edge := stepSampled_of_not_isTxn hr ht fun h => absurd h hq
  cases h with
  | reset hr => exact stepSampled_of_rst hr
  | acceptRegister hr hq hv hop =>
    rw [stepSampled_of_command hr hq hv, exec_decodeCommand_register hop, State.accept_recoverBte, State.recoverBte_enter]
  | acceptSelfTest hr hq hv hop =>
    rw [stepSampled_of_command hr hq hv, exec_decodeCommand_selfTest hop, State.acceptSelfTest_recoverBte]
  | acceptReserved hr hq hv hop => rw [stepSampled_of_command hr hq hv, exec_decodeCommand_illegal hop]
  | headerDone hr ht hb hx => exact stepSampled_of_header hr ht hb hx
  | windowOpens hr ht hb hd => rw [hengine hr ht (by simp [hb]), State.txnEdge_of_pre hb hd]
  | setupEnds hr ht hb hd => rw [hengine hr ht (by simp [hb]), State.txnEdge_of_setup hb hd]
  | exchangeWaits hr ht hb hx =>
    rw [stepSampled_of_isTxn hr ht (by simp [hx])]
    obtain hb | hb := hb
    · rw [State.txnEdge_of_hdr hb]
    · rw [State.txnEdge_of_data_wait hb hx]
  | gapEnds hr ht hb => rw [hengine hr ht (by simp [hb]), State.txnEdge_of_gap hb]
  | dataDone hr ht hb hx => exact stepSampled_of_data hr ht hb hx
  | windowCloses hr ht hb hd => rw [hengine hr ht (by simp [hb]), State.txnEdge_of_hold hb hd]
  | completes hr ht hb hd _ hc => rw [stepSampled_of_completes hr ht hb hd, hc.complete]
  | delayCounts hr ht hb hd =>
    rw [hengine hr ht (by obtain hb | hb | hb | hb := hb <;> simp [hb]), State.txnEdge_of_counting hb hd]
  | engineRecovers hr ht hb => rw [hengine hr ht (by simp [hb]), State.txnEdge, hb]
  | settleCounts hr hq hd =>
    obtain hq | hq := hq <;> rw [hidle hr (by rw [hq]; rfl) (by simp [hq])] <;> simp [State.edge, hq, hd]
  | initSettled hr hq hd => simp [hidle hr (by rw [hq]; rfl) (by simp [hq]), State.edge, hq, hd]
  | testSettled hr hq hd =>
    have hu : (s.enter .stFlush).recoverBte = s.enter .stFlush := State.recoverBte_of_used _ nofun
    simp [hidle hr (by rw [hq]; rfl) (by simp [hq]), State.edge, hq, hd, hu]
  | idles hr hq hv => simp [stepSampled_of_not_isTxn hr (by rw [hq]; rfl) fun _ => hv, State.edge, hq]
  | compares hr hq => simp [hidle hr (by rw [hq]; rfl) (by simp [hq]), State.edge, hq]
  | responseTaken hr hq hy =>
    simp [hidle hr (by rw [hq]; rfl) (by simp [hq]), State.edge, hq, State.takeResponse_of_ready s hy]
  | responseHeld hr hq hy =>
    simp [hidle hr (by rw [hq]; rfl) (by simp [hq]), State.edge, hq, State.takeResponse_of_not_ready s hy]
  | seqRecovers k hr hq => simp [hidle hr (by rw [hq]; rfl) (by simp [hq]), State.edge, hq]

theorem exists_edgeRule_of_isTxn (hr : s.pins.rst = false) (ht : s.seq.isTxn = true) : ∃ t, EdgeRule s t := by
  have hcount (hb : s.bte = .pre ∨ s.bte = .setup ∨ s.bte = .hold ∨ s.bte = .post) (hd : s.dly ≠ 0) :
      ∃ t, EdgeRule s t := ⟨_, .delayCounts hr ht hb hd⟩
  cases hb : s.bte with
  | pre =>
    by_cases hd : s.dly = 0
    · exact ⟨_, .windowOpens hr ht hb hd⟩
    · exact hcount (.inl hb) hd
  | setup =>
    by_cases hd : s.dly = 0
    · exact ⟨_, .setupEnds hr ht hb hd⟩
    · exact hcount (.inr (.inl hb)) hd
  | hdr =>
    cases hx : s.pins.xDone
    · exact ⟨_, .exchangeWaits hr ht (.inl hb) hx⟩
    · exact ⟨_, .headerDone hr ht hb hx⟩
  | gap => exact ⟨_, .gapEnds hr ht hb⟩
  | data =>
    cases hx : s.pins.xDone
    · exact ⟨_, .exchangeWaits hr ht (.inr hb) hx⟩
    · exact ⟨_, .dataDone hr ht hb hx⟩
  | hold =>
    by_cases hd : s.dly = 0
    · exact ⟨_, .windowCloses hr ht hb hd⟩
    · exact hcount (.inr (.inr (.inl hb))) hd
  | post =>
    by_cases hd : s.dly = 0
    · obtain ⟨t, hc⟩ := exists_completionRule ht
      exact ⟨t, .completes hr ht hb hd t hc⟩
    · exact hcount (.inr (.inr (.inr hb))) hd
  | unused => exact ⟨_, .engineRecovers hr ht hb⟩

/-- A command word offered has its rule, by its `op` (R99). -/
theorem exists_edgeRule_of_command (hr : s.pins.rst = false) (hq : s.seq = .idle) (hv : s.pins.cmdValid = true) :
    ∃ t, EdgeRule s t := by
  obtain hop | hop | hop | hop := opField_cases s.pins.cmdWord
  · exact ⟨_, .acceptRegister hr hq hv (.inl hop)⟩
  · exact ⟨_, .acceptRegister hr hq hv (.inr hop)⟩
  · exact ⟨_, .acceptSelfTest hr hq hv hop⟩
  · exact ⟨_, .acceptReserved hr hq hv hop⟩

theorem exists_edgeRule_of_not_isTxn (hr : s.pins.rst = false) (ht : s.seq.isTxn ≠ true) : ∃ t, EdgeRule s t := by
  cases hq : s.seq
  case initWait =>
    by_cases hd : s.dly = 0
    · exact ⟨_, .initSettled hr hq hd⟩
    · exact ⟨_, .settleCounts hr (.inl hq) hd⟩
  case stWait =>
    by_cases hd : s.dly = 0
    · exact ⟨_, .testSettled hr hq hd⟩
    · exact ⟨_, .settleCounts hr (.inr hq) hd⟩
  case idle =>
    cases hv : s.pins.cmdValid
    · exact ⟨_, .idles hr hq hv⟩
    · exact exists_edgeRule_of_command hr hq hv
  case stVerify => exact ⟨_, .compares hr hq⟩
  case resp =>
    cases hy : s.pins.rspReady
    · exact ⟨_, .responseHeld hr hq hy⟩
    · exact ⟨_, .responseTaken hr hq hy⟩
  case unused k => exact ⟨_, .seqRecovers k hr hq⟩
  all_goals simp [hq, SeqState.isTxn] at ht

/-- Every state has a rule for its edge. -/
theorem exists_edgeRule (s : State) : ∃ t, EdgeRule s t := by
  cases hr : s.pins.rst
  · by_cases ht : s.seq.isTxn = true
    · exact exists_edgeRule_of_isTxn hr ht
    · exact exists_edgeRule_of_not_isTxn hr ht
  · exact ⟨_, .reset hr⟩

/-- The rules are the machine's edge. -/
theorem stepSampled_eq_next_iff : stepSampled s = .next t ↔ EdgeRule s t := by
  refine ⟨fun h => ?_, EdgeRule.stepSampled⟩
  obtain ⟨u, hu⟩ := exists_edgeRule s
  obtain rfl : u = t := by simpa [hu.stepSampled] using h
  exact hu

theorem step_eq_next_iff : step s = .next t ↔ EdgeRule s.sample t := stepSampled_eq_next_iff

/-- Every state takes a step, by one of the rules. -/
theorem exists_step (s : State) : ∃ t, step s = .next t ∧ EdgeRule s.sample t := by
  obtain ⟨t, ht⟩ := exists_edgeRule s.sample
  exact ⟨t, ht.stepSampled, ht⟩

/-- Settles O13: every state has a rule, and every rule answers a next state. -/
theorem everyStepAnswersNext : Obligations.EveryStepAnswersNext := by
  intro s
  obtain ⟨t, ht, -⟩ := exists_step s
  exact ⟨t, ht⟩

end Sys2Proof.Machine
end

section
/-! The bus trace: what each edge adds to it, and that it stays bracketed (spec/40_bus_transactions.md R80, R93). -/

namespace Sys2Proof.Machine

variable {s t : State}

namespace State

variable (s : State)

/-! ### The output ports read no input port -/

@[simp] theorem sample_txn : s.sample.txn = s.txn := by simp [State.txn]
@[simp] theorem sample_csN : s.sample.csN = s.csN := by simp [csN]
@[simp] theorem sample_xReq : s.sample.xReq = s.xReq := by simp [xReq]
@[simp] theorem sample_xTx : s.sample.xTx = s.xTx := by simp [xTx]

end State

/-! ### Chip-select, by the engine's state (R34) -/

theorem State.csN_of_not_isTxn (ht : s.seq.isTxn = false) : s.csN = true := by simp [State.csN, ht]

theorem State.csN_of_not_inWindow (hb : s.bte.inWindow = false) : s.csN = true := by simp [State.csN, hb]

theorem State.csN_of_inWindow (ht : s.seq.isTxn = true) (hb : s.bte.inWindow = true) : s.csN = false :=
  State.csN_eq_false.2 ⟨ht, hb⟩

/-- The recovered engine is outside a window, as code 7 was. -/
@[simp] theorem State.recoverBte_csN (s : State) : s.recoverBte.csN = s.csN := by
  by_cases h : s.bte = .unused
  · simp [s.recoverBte_of_unused h, State.csN, h, BteState.inWindow]
  · rw [s.recoverBte_of_used h]

/-- After a completion edge no window is open, and the trace is as it was. -/
theorem CompletionRule.bus_idle (h : CompletionRule s t) : t.csN = true ∧ t.trace = s.trace := by
  cases h
  case initReset | testReset | host | disarmTimesOut | disarmCompares => exact ⟨State.csN_of_not_isTxn rfl, rfl⟩
  all_goals exact ⟨State.csN_of_not_inWindow rfl, rfl⟩

/-- No exchange is requested outside a window. -/
theorem State.xReq_of_csN (h : s.csN = true) : s.xReq = false := by
  rw [Bool.eq_false_iff]
  intro hx
  obtain ⟨ht, he⟩ := State.xReq_eq_true.1 hx
  simp [State.csN_of_inWindow ht (BteState.inWindow_of_exchanging he)] at h

/-! ### What an edge does on the bus -/

/-- An edge as the bus sees it: reset, one of the four edges of a window that are events, or silence. -/
inductive BusRule (s : State) : State → Prop
  | reset (hr : s.pins.rst = true) : BusRule s s.resetEdge
  | opens (hr : s.pins.rst = false) (ht : s.seq.isTxn = true) (hb : s.bte = .pre) :
      BusRule s ({ s with bte := .setup, dly := s.build.tCsLess1 }.record .cs0)
  | header (hr : s.pins.rst = false) (ht : s.seq.isTxn = true) (hb : s.bte = .hdr) (hx : s.pins.xDone = true) :
      BusRule s (s.endHeader s.txn.headerByte)
  | data (hr : s.pins.rst = false) (ht : s.seq.isTxn = true) (hb : s.bte = .data) (hx : s.pins.xDone = true) :
      BusRule s s.endData
  | closes (hr : s.pins.rst = false) (ht : s.seq.isTxn = true) (hb : s.bte = .hold) (hd : s.dly = 0) :
      BusRule s ({ s with bte := .post, dly := s.build.tCsLess1 }.record .cs1)
  | silent (t : State) (hr : s.pins.rst = false) (hx : s.xReq = true → s.pins.xDone = false) (hcs : t.csN = s.csN)
      (htrace : t.trace = s.trace) (hex : s.csN = false → t.bte.exchanged = s.bte.exchanged) : BusRule s t

/-- Silence with no window open before or after. -/
theorem BusRule.of_csN (hr : s.pins.rst = false) (hs : s.csN = true) (ht : t.csN = true) (htrace : t.trace = s.trace) :
    BusRule s t :=
  .silent t hr (fun hx => by simp [State.xReq_of_csN hs] at hx) (ht.trans hs.symm) htrace (fun hn => by simp [hs] at hn)

/-- Silence outside the transaction states. -/
theorem BusRule.of_not_isTxn (hr : s.pins.rst = false) {q : SeqState} (hq : s.seq = q) (hn : q.isTxn = false)
    (ht : t.csN = true) (htrace : t.trace = s.trace) : BusRule s t :=
  .of_csN hr (State.csN_of_not_isTxn (hq ▸ hn)) ht htrace

/-- Silence inside a window, between the exchanges. -/
theorem BusRule.of_inWindow (hr : s.pins.rst = false) (ht : s.seq.isTxn = true) (hq : t.seq = s.seq)
    (hx : s.bte.exchanging = false) (hs : s.bte.inWindow = true) (hw : t.bte.inWindow = true) (htrace : t.trace = s.trace)
    (hex : t.bte.exchanged = s.bte.exchanged) : BusRule s t :=
  .silent t hr (fun h => by simp [State.xReq, hx] at h)
    ((State.csN_of_inWindow (by rw [hq, ht]) hw).trans (State.csN_of_inWindow ht hs).symm) htrace (fun _ => hex)

/-- Every edge is one of these. -/
theorem EdgeRule.bus (h : EdgeRule s t) : BusRule s t := by
  cases h with
  | reset hr => exact .reset hr
  | windowOpens hr ht hb hd => exact .opens hr ht hb
  | headerDone hr ht hb hx => exact .header hr ht hb hx
  | dataDone hr ht hb hx => exact .data hr ht hb hx
  | windowCloses hr ht hb hd => exact .closes hr ht hb hd
  | setupEnds hr ht hb hd => exact .of_inWindow hr ht rfl (by rw [hb]; rfl) (by rw [hb]; rfl) rfl rfl (by rw [hb]; rfl)
  | exchangeWaits hr ht hb hx => exact .silent _ hr (fun _ => hx) rfl rfl fun _ => rfl
  | gapEnds hr ht hb => exact .of_inWindow hr ht rfl (by rw [hb]; rfl) (by rw [hb]; rfl) rfl rfl (by rw [hb]; rfl)
  | delayCounts hr ht hb hd =>
    have hx : s.xReq = false := by obtain hb | hb | hb | hb := hb <;> simp [State.xReq, hb, BteState.exchanging]
    exact .silent _ hr (by simp [hx]) rfl rfl fun _ => rfl
  | completes hr ht hb hd t hc =>
    obtain ⟨hcs, htrace⟩ := hc.bus_idle
    exact .of_csN hr (State.csN_of_not_inWindow (by rw [hb]; rfl)) hcs htrace
  | engineRecovers hr ht hb =>
    have hcs := State.csN_of_not_inWindow (s := s) (by rw [hb]; rfl)
    exact .of_csN hr hcs (by rw [State.recoverBte_csN, hcs]) (State.recoverBte_trace s)
  | acceptRegister hr hq | acceptSelfTest hr hq | testSettled hr hq | seqRecovers _ hr hq =>
    exact .of_not_isTxn hr hq rfl (State.csN_of_not_inWindow rfl) rfl
  | acceptReserved hr hq => exact .of_not_isTxn hr hq rfl (State.csN_of_not_isTxn rfl) (State.recoverBte_trace s)
  | settleCounts hr hq hd =>
    have hn : s.seq.isTxn = false := by obtain hq | hq := hq <;> rw [hq] <;> rfl
    exact .of_not_isTxn hr rfl hn (by rw [State.recoverBte_csN]; exact State.csN_of_not_isTxn hn) (State.recoverBte_trace _)
  | idles hr hq | responseHeld hr hq =>
    have hcs : s.csN = true := State.csN_of_not_isTxn (by rw [hq]; rfl)
    exact .of_csN hr hcs (by rw [State.recoverBte_csN, hcs]) (State.recoverBte_trace s)
  | initSettled hr hq | compares hr hq | responseTaken hr hq =>
    exact .of_not_isTxn hr hq rfl (by rw [State.recoverBte_csN]; exact State.csN_of_not_isTxn rfl) (State.recoverBte_trace _)

/-! ### The trace after a step -/

/-- The events of one edge from `s` to `t`, by the ports alone (R12). -/
theorem BusRule.trace_eq (h : BusRule s t) :
    t.trace =
      if s.csN = true ∧ t.csN = false then .cs0 :: s.trace
      else if s.csN = false ∧ t.csN = true then .cs1 :: s.trace
      else if s.pins.rst = false ∧ s.xReq = true ∧ s.pins.xDone = true then .x s.xTx s.pins.xRx :: s.trace
      else s.trace := by
  cases h with
  | reset hr => cases h : s.csN <;> simp [hr, h]
  | opens hr ht hb =>
    have hs : s.csN = true := State.csN_of_not_inWindow (by rw [hb]; rfl)
    have ht : (State.record { s with bte := .setup, dly := s.build.tCsLess1 } .cs0).csN = false :=
      State.csN_of_inWindow ht rfl
    simp [hs, ht]
  | header hr ht hb hx =>
    have hs : s.csN = false := State.csN_of_inWindow ht (by rw [hb]; rfl)
    have ht' : (s.endHeader s.txn.headerByte).csN = false := State.csN_of_inWindow ht rfl
    simp [hs, ht', hr, hx, State.xReq_of_hdr ht hb, State.xTx_of_hdr ht hb]
  | data hr ht hb hx =>
    have hs : s.csN = false := State.csN_of_inWindow ht (by rw [hb]; rfl)
    have ht' : s.endData.csN = false := State.csN_of_inWindow ht rfl
    simp [hs, ht', hr, hx, State.xReq_of_data ht hb, State.xTx_of_data ht hb]
  | closes hr ht hb hd =>
    have hs : s.csN = false := State.csN_of_inWindow ht (by rw [hb]; rfl)
    have ht : (State.record { s with bte := .post, dly := s.build.tCsLess1 } .cs1).csN = true :=
      State.csN_of_not_inWindow rfl
    simp [hs, ht]
  | silent t hr hx hcs htrace =>
    have hno : ¬ (s.pins.rst = false ∧ s.xReq = true ∧ s.pins.xDone = true) := fun ⟨_, hreq, hdone⟩ => by
      simp [hx hreq] at hdone
    rw [hcs, htrace, if_neg (by simp), if_neg (by simp), if_neg hno]

/-- Settles O54: the event of an edge is that of its rule on the bus. -/
theorem traceRecordsEveryBusEvent : Obligations.TraceRecordsEveryBusEvent := by
  intro s
  obtain ⟨t, ht, he⟩ := exists_step s
  exact ⟨t, ht, by simpa using he.bus.trace_eq⟩

/-! ### Bracketing (R93) -/

theorem Bracketed.closed (h : Bracketed s) (hcs : s.csN = true) : windowOf s.trace = some .closed := by
  simpa [Bracketed, hcs] using h

theorem Bracketed.opened (h : Bracketed s) (hcs : s.csN = false) : windowOf s.trace = some (.opened s.bte.exchanged) := by
  simpa [Bracketed, hcs] using h

theorem bracketed_of_closed (hcs : s.csN = true) (h : windowOf s.trace = some .closed) : Bracketed s := by
  simpa [Bracketed, hcs] using h

theorem bracketed_of_opened (hcs : s.csN = false) (h : windowOf s.trace = some (.opened s.bte.exchanged)) : Bracketed s := by
  simpa [Bracketed, hcs] using h

theorem windowOf_cs1 {es : List BusEvent} {n : Nat} (h : windowOf es = some (.opened n)) :
    windowOf (.cs1 :: es) = some .closed := by
  simp [windowOf, h]

/-- Every byte sent first in a window is a header, with bit 0 clear (R70). -/
theorem windowOf_header {es : List BusEvent} (t : Txn) (rx : Byte) (h : windowOf es = some (.opened 0)) :
    windowOf (.x t.headerByte rx :: es) = some (.opened 1) := by
  have hbit : t.headerByte.getLsbD 0 = false := hdr_bit_zero t.rw t.addr
  simp only [windowOf, h, hbit, Bool.false_eq_true, if_false]

theorem BusRule.bracketed (h : BusRule s t) (hs : Bracketed s) : Bracketed t := by
  cases h with
  | reset hr =>
    refine bracketed_of_closed rfl ?_
    rw [State.resetEdge_trace]
    cases hcs : s.csN
    · exact windowOf_cs1 (hs.opened hcs)
    · exact hs.closed hcs
  | opens hr ht hb =>
    refine bracketed_of_opened (State.csN_of_inWindow ht rfl) ?_
    simp [windowOf, hs.closed (State.csN_of_not_inWindow (by rw [hb]; rfl)), BteState.exchanged]
  | header hr ht hb hx =>
    have hw := hs.opened (State.csN_of_inWindow ht (by rw [hb]; rfl))
    rw [hb] at hw
    exact bracketed_of_opened (State.csN_of_inWindow ht rfl) (windowOf_header _ _ hw)
  | data hr ht hb hx =>
    have hw := hs.opened (State.csN_of_inWindow ht (by rw [hb]; rfl))
    rw [hb] at hw
    refine bracketed_of_opened (State.csN_of_inWindow ht rfl) ?_
    simp [windowOf, hw, BteState.exchanged]
  | closes hr ht hb hd =>
    have hw := hs.opened (State.csN_of_inWindow ht (by rw [hb]; rfl))
    exact bracketed_of_closed (State.csN_of_not_inWindow rfl) (windowOf_cs1 hw)
  | silent t hr hx hcs htrace hex =>
    cases h : s.csN
    · exact bracketed_of_opened (hcs.trans h) (by rw [htrace, hex h]; exact hs.opened h)
    · exact bracketed_of_closed (hcs.trans h) (by rw [htrace]; exact hs.closed h)

theorem bracketed_sample : Bracketed s.sample ↔ Bracketed s := by simp [Bracketed]

/-- Settles O55: each rule on the bus takes the last window from one of its stages to the next. -/
theorem stepKeepsTheTraceBracketed : Obligations.StepKeepsTheTraceBracketed := by
  intro s t hs ht
  exact (step_eq_next_iff.1 ht).bus.bracketed (bracketed_sample.2 hs)

/-- Settles O56: nothing is recorded yet and `cs_n` is 1. -/
theorem resetStateIsBracketed : Obligations.ResetStateIsBracketed :=
  bracketed_of_closed (State.csN_of_not_inWindow rfl) rfl

/-- Without reset chip-select rises only where the hold delay ends. -/
theorem BusRule.hold_ends (h : BusRule s t) (hr : s.pins.rst = false) (hs : s.csN = false) (ht : t.csN = true) :
    s.bte = .hold ∧ s.dly = 0 := by
  cases h with
  | closes _ _ hb hd => exact ⟨hb, hd⟩
  | reset hr' => simp [hr] at hr'
  | opens _ _ hb => simp [State.csN, hb, BteState.inWindow] at hs
  | header _ hq _ _ => simp [State.csN, hq, BteState.inWindow] at ht
  | data _ hq _ _ => simp [State.csN, hq, BteState.inWindow] at ht
  | silent _ _ _ hcs => simp [hcs, hs] at ht

/-- Settles O57: the window ends in the hold delay, by which time the engine has made two exchanges. -/
theorem uninterruptedWindowsHoldTwoExchanges : Obligations.UninterruptedWindowsHoldTwoExchanges := by
  intro s t hs ht hr hlow hhigh
  have hend := (step_eq_next_iff.1 ht).bus.hold_ends hr (by rwa [State.sample_csN]) hhigh
  rw [State.sample_bte, State.sample_dly] at hend
  obtain ⟨hb, hd⟩ := hend
  have hw := hs.opened hlow
  rw [hb] at hw
  exact ⟨hw, hb, hd⟩

end Sys2Proof.Machine
end

section
/-! The sequencer's invariant (spec/10_state.md R22 to R28, spec/41_self_test.md R111, R112) and the width of `DLY` (R25). -/

namespace Sys2Proof

/-- The two values loaded into `DLY` fit its width (R25). -/
theorem Build.loads_fit (b : Build) : b.tCsLess1 < 2 ^ b.wDly ∧ b.tSettleLess1 < 2 ^ b.wDly := by
  have hmax : max b.tCs b.tSettle ≤ 2 ^ b.wDly :=
    (Nat.le_pow_clog Nat.one_lt_two _).trans (Nat.pow_le_pow_right Nat.two_pos (le_max_right _ _))
  exact ⟨(le_max_left b.tCs b.tSettle).trans hmax, (le_max_right b.tCs b.tSettle).trans hmax⟩

end Sys2Proof

namespace Sys2Proof.Machine

variable {s t : State}

/-! ### What DLY may hold, by the state -/

theorem dlyInRange_of_counting (ht : s.seq.isTxn = true)
    (hb : s.bte = .pre ∨ s.bte = .setup ∨ s.bte = .hold ∨ s.bte = .post) : DlyInRange s ↔ s.dly ≤ s.build.tCsLess1 := by
  obtain hb | hb | hb | hb := hb <;> simp [DlyInRange, ht, hb]

theorem dlyInRange_of_between (ht : s.seq.isTxn = true) (hb : s.bte = .hdr ∨ s.bte = .gap ∨ s.bte = .data) :
    DlyInRange s ↔ s.dly = 0 := by
  obtain hb | hb | hb := hb <;> simp [DlyInRange, ht, hb]

theorem dlyInRange_of_settling (hq : s.seq = .initWait ∨ s.seq = .stWait) :
    DlyInRange s ↔ s.dly ≤ s.build.tSettleLess1 := by
  obtain hq | hq := hq <;> simp [DlyInRange, hq, SeqState.isTxn]

/-- In the one-edge states and the states that wait for the host, `DLY` is free. -/
theorem dlyInRange_of_free (hq : s.seq = .idle ∨ s.seq = .stVerify ∨ s.seq = .resp) : DlyInRange s := by
  obtain hq | hq | hq := hq <;> simp [DlyInRange, hq, SeqState.isTxn]

theorem dlyInRange_enter {q : SeqState} (hq : q.isTxn = true) : DlyInRange (s.enter q) :=
  (dlyInRange_of_counting hq (.inl rfl)).2 le_rfl

theorem dlyInRange_settle {q : SeqState} (hq : q = .initWait ∨ q = .stWait) : DlyInRange (s.settle q) :=
  (dlyInRange_of_settling hq).2 le_rfl

/-! ### Making the invariant -/

theorem SeqState.inSelfTest_of_beforePolls {q : SeqState} (h : q.beforePolls = true) : q.inSelfTest = true := by
  cases q <;> simp_all [SeqState.beforePolls, SeqState.inSelfTest]

/-- Outside a self-test the invariant is about the codes, `DLY` and a host command alone. -/
theorem sequencerInv_of_not_inSelfTest (hn : s.seq.inSelfTest = false) (hk : ∀ k, s.seq ≠ .unused k) (hb : s.bte ≠ .unused)
    (hd : DlyInRange s) (hc : s.seq = .host → s.cmd.getLsbD 15 = false) : SequencerInv s where
  seqUsed := hk
  bteUsed := hb
  dlyInRange := hd
  hostCommand := hc
  selfTestCommand h := by simp [hn] at h
  loadCount h := by simp [h, SeqState.inSelfTest] at hn
  pollsCleared h := by simp [SeqState.inSelfTest_of_beforePolls h] at hn
  pollsBelowBound h := by simp [h, SeqState.inSelfTest] at hn
  pollsWithinBound h := by simp [hn] at h
  timeoutOnlyInDisarm h := by simp [hn] at h

/-- In a self-test before its first poll nothing is counted and TO is clear. -/
theorem sequencerInv_of_beforePolls (hq : s.seq.beforePolls = true) (hb : s.bte ≠ .unused) (hd : DlyInRange s)
    (hc : opField s.cmd = 0b10) (hcnt : s.seq = .stLoad → s.cnt.toNat ≤ 24) (hp : s.polls = 0) (hto : s.toFlag = false) :
    SequencerInv s where
  seqUsed k h := by simp [h, SeqState.beforePolls] at hq
  bteUsed := hb
  dlyInRange := hd
  hostCommand h := by simp [h, SeqState.beforePolls] at hq
  selfTestCommand _ := hc
  loadCount := hcnt
  pollsCleared _ := hp
  pollsBelowBound h := by simp [h, SeqState.beforePolls] at hq
  pollsWithinBound _ _ := by simp [hp]
  timeoutOnlyInDisarm _ h := by simp [hto] at h

/-- From the first poll on, the poll count is within the bound. -/
theorem sequencerInv_of_polling (hq : s.seq = .stPoll ∨ s.seq = .stDrain ∨ s.seq = .stDisarm ∨ s.seq = .stVerify)
    (hb : s.bte ≠ .unused) (hd : DlyInRange s) (hc : opField s.cmd = 0b10)
    (hlt : s.seq = .stPoll → s.bound ≠ 0 → s.polls.toNat < s.bound.toNat)
    (hle : s.bound ≠ 0 → s.polls.toNat ≤ s.bound.toNat)
    (hto : s.toFlag = true → s.seq = .stDisarm ∧ s.bound ≠ 0 ∧ s.polls = s.bound) : SequencerInv s where
  seqUsed k h := by simp [h] at hq
  bteUsed := hb
  dlyInRange := hd
  hostCommand h := by simp [h] at hq
  selfTestCommand _ := hc
  loadCount h := by simp [h] at hq
  pollsCleared h := by obtain hq | hq | hq | hq := hq <;> simp [hq, SeqState.beforePolls] at h
  pollsBelowBound := hlt
  pollsWithinBound _ := hle
  timeoutOnlyInDisarm _ := hto

/-- An edge of the engine into one of its delays changes nothing the invariant speaks of but `BTE` and `DLY`. -/
theorem SequencerInv.counting (h : SequencerInv s) (ht : s.seq.isTxn = true) {b : BteState} {d : Nat}
    (hb : b = .pre ∨ b = .setup ∨ b = .hold ∨ b = .post) (hd : d ≤ s.build.tCsLess1) :
    SequencerInv { s with bte := b, dly := d } :=
  { h with
    bteUsed := by obtain rfl | rfl | rfl | rfl := hb <;> nofun
    dlyInRange := (dlyInRange_of_counting (s := { s with bte := b, dly := d }) ht hb).2 hd }

/-- An edge of the engine to the exchanges or the gap between them does not even change `DLY`. -/
theorem SequencerInv.between (h : SequencerInv s) (ht : s.seq.isTxn = true) {b : BteState}
    (hb : b = .hdr ∨ b = .gap ∨ b = .data) (hd : s.dly = 0) : SequencerInv { s with bte := b } :=
  { h with
    bteUsed := by obtain rfl | rfl | rfl := hb <;> nofun
    dlyInRange := (dlyInRange_of_between (s := { s with bte := b }) ht hb).2 hd }

/-- The invariant does not speak of RDATA, the ports or the trace. -/
theorem SequencerInv.of_unread (h : SequencerInv s) (x : Byte) (p : Pins) (ps : List Pins) (n : Nat) (es : List BusEvent) :
    SequencerInv { s with rdata := x, pins := p, inputs := ps, drawn := n, trace := es } :=
  { h with }

theorem SequencerInv.sample (h : SequencerInv s) : SequencerInv s.sample := by
  unfold State.sample
  split <;> exact h.of_unread ..

theorem SequencerInv.recoverBte (h : SequencerInv s) : SequencerInv s.recoverBte := by
  rwa [s.recoverBte_of_used h.bteUsed]

/-! ### The poll count and the bound (R111, R112) -/

/-- Below a bound the count does not saturate. -/
theorem State.pollsNext_toNat (h : s.polls.toNat < s.bound.toNat) : s.pollsNext.toNat = s.polls.toNat + 1 := by
  have hb : s.bound.toNat < 16384 := s.bound.isLt
  rw [State.pollsNext, sat14, BitVec.toNat_ofNat]
  omega

theorem State.boundHit_eq_true : s.boundHit = true ↔ s.bound ≠ 0 ∧ s.pollsNext = s.bound := by simp [State.boundHit]

/-- One more poll keeps the count within the bound. -/
theorem SequencerInv.pollsNext_le (h : SequencerInv s) (hq : s.seq = .stPoll) (hb : s.bound ≠ 0) :
    s.pollsNext.toNat ≤ s.bound.toNat := by
  have hlt := h.pollsBelowBound hq hb
  rw [State.pollsNext_toNat hlt]
  exact hlt

/-- One more poll that does not hit the bound leaves the count below it. -/
theorem SequencerInv.pollsNext_lt (h : SequencerInv s) (hq : s.seq = .stPoll) (hh : s.boundHit = false) (hb : s.bound ≠ 0) :
    s.pollsNext.toNat < s.bound.toNat := by
  refine lt_of_le_of_ne (h.pollsNext_le hq hb) fun heq => ?_
  rw [State.boundHit_eq_true.2 ⟨hb, BitVec.eq_of_toNat_eq heq⟩] at hh
  cases hh

/-- TO is clear in every state of a self-test but the disarm. -/
theorem SequencerInv.toFlag_eq_false (h : SequencerInv s) (hq : s.seq.inSelfTest = true) (hn : s.seq ≠ .stDisarm) :
    s.toFlag = false :=
  Bool.eq_false_iff.2 fun hto => hn (h.timeoutOnlyInDisarm hq hto).1

/-! ### Every edge keeps it -/

/-- From one step of a self-test before the polls to another. -/
theorem SequencerInv.setupNext (h : SequencerInv s) (hs : s.seq.beforePolls = true) (ht : t.seq.beforePolls = true)
    (hb : t.bte ≠ .unused) (hd : DlyInRange t) (hcnt : t.seq = .stLoad → t.cnt.toNat ≤ 24) (hcmd : t.cmd = s.cmd)
    (hpolls : t.polls = s.polls) (hto : t.toFlag = s.toFlag) : SequencerInv t := by
  have hin := SeqState.inSelfTest_of_beforePolls hs
  refine sequencerInv_of_beforePolls ht hb hd (by rw [hcmd]; exact h.selfTestCommand hin) hcnt
    (hpolls.trans (h.pollsCleared hs)) (hto.trans (h.toFlag_eq_false hin fun hq => ?_))
  simp [hq, SeqState.beforePolls] at hs

/-- From a drain read or the disarm to what follows it. -/
theorem SequencerInv.drainNext (h : SequencerInv s) (hs : s.seq = .stDrain ∨ s.seq = .stDisarm)
    (ht : t.seq = .stDrain ∨ t.seq = .stDisarm ∨ t.seq = .stVerify) (hb : t.bte ≠ .unused) (hd : DlyInRange t)
    (hcmd : t.cmd = s.cmd) (hpolls : t.polls = s.polls) (hto : t.toFlag = false) : SequencerInv t := by
  have hin : s.seq.inSelfTest = true := by obtain hs | hs := hs <;> rw [hs] <;> rfl
  refine sequencerInv_of_polling (.inr ht) hb hd (by rw [hcmd]; exact h.selfTestCommand hin) (fun hq => ?_) (fun hne => ?_)
    (fun hset => ?_)
  · simp [hq] at ht
  · have hbound : t.bound = s.bound := congrArg boundField hcmd
    rw [hbound] at hne ⊢
    rw [hpolls]
    exact h.pollsWithinBound hin hne
  · simp [hto] at hset

theorem CompletionRule.sequencerInv (hc : CompletionRule s t) (h : SequencerInv s) : SequencerInv t := by
  have hpost : s.bte ≠ .unused := h.bteUsed
  cases hc with
  | initReset hq => exact sequencerInv_of_not_inSelfTest rfl nofun hpost (dlyInRange_settle (.inl rfl)) nofun
  | host hq =>
    exact sequencerInv_of_not_inSelfTest rfl nofun hpost (dlyInRange_of_free (.inr (.inr rfl))) nofun
  | testReset hq => exact h.setupNext (by rw [hq]; rfl) rfl hpost (dlyInRange_settle (.inr rfl)) nofun rfl rfl rfl
  | flush hq =>
    exact h.setupNext (by rw [hq]; rfl) rfl nofun (dlyInRange_enter rfl) (fun _ => by simp) rfl rfl rfl
  | loadNext hq hc =>
    refine h.setupNext (by rw [hq]; rfl) rfl nofun (dlyInRange_enter rfl) (fun _ => ?_) rfl rfl rfl
    have hle := h.loadCount hq
    have hne : s.cnt.toNat ≠ 24 := fun heq => hc (BitVec.eq_of_toNat_eq heq)
    have hone : (1 : BitVec 6).toNat = 1 := rfl
    rw [State.enter_cnt, BitVec.toNat_add, hone]
    omega
  | loadLast hq hc => exact h.setupNext (by rw [hq]; rfl) rfl nofun (dlyInRange_enter rfl) nofun rfl rfl rfl
  | fixed hq hn =>
    cases hn with
    | afterMem | afterArm | afterSeed => exact h.setupNext (by rw [hq]; rfl) rfl nofun (dlyInRange_enter rfl) nofun rfl rfl rfl
    | afterCalc =>
      have hin : s.seq.inSelfTest = true := by rw [hq]; rfl
      have hpolls : s.polls = 0 := h.pollsCleared (by rw [hq]; rfl)
      have hto : s.toFlag = false := h.toFlag_eq_false hin (by simp [hq])
      refine sequencerInv_of_polling (.inl rfl) nofun (dlyInRange_enter rfl) (h.selfTestCommand hin) (fun _ hne => ?_)
        (fun _ => by simp [hpolls]) (fun hset => by simp [hto] at hset)
      have hne' : s.bound.toNat ≠ 0 := fun h0 => hne (BitVec.eq_of_toNat_eq h0)
      have hpos : 0 < s.bound.toNat := Nat.pos_of_ne_zero hne'
      rwa [State.enter_polls, hpolls]
  | pollReady hq hl =>
    have hin : s.seq.inSelfTest = true := by rw [hq]; rfl
    have hto : s.toFlag = false := h.toFlag_eq_false hin (by simp [hq])
    exact sequencerInv_of_polling (.inr (.inl rfl)) nofun (dlyInRange_enter rfl) (h.selfTestCommand hin) nofun
      (h.pollsNext_le hq) (fun hset => by simp [hto] at hset)
  | pollTimesOut hq hl hh =>
    have hin : s.seq.inSelfTest = true := by rw [hq]; rfl
    obtain ⟨hne, heq⟩ := State.boundHit_eq_true.1 hh
    exact sequencerInv_of_polling (.inr (.inr (.inl rfl))) nofun (dlyInRange_enter rfl) (h.selfTestCommand hin) nofun
      (h.pollsNext_le hq) (fun _ => ⟨rfl, hne, heq⟩)
  | pollAgain hq hl hh =>
    have hin : s.seq.inSelfTest = true := by rw [hq]; rfl
    have hto : s.toFlag = false := h.toFlag_eq_false hin (by simp [hq])
    exact sequencerInv_of_polling (.inl rfl) nofun (dlyInRange_enter rfl) (h.selfTestCommand hin)
      (fun _ => h.pollsNext_lt hq hh) (h.pollsNext_le hq) (fun hset => by simp [hto] at hset)
  | drainNext hq hc =>
    have hto : s.toFlag = false := h.toFlag_eq_false (by rw [hq]; rfl) (by simp [hq])
    exact h.drainNext (.inl hq) (.inl rfl) nofun (dlyInRange_enter rfl) rfl rfl hto
  | drainLast hq hc =>
    have hto : s.toFlag = false := h.toFlag_eq_false (by rw [hq]; rfl) (by simp [hq])
    exact h.drainNext (.inl hq) (.inr (.inl rfl)) nofun (dlyInRange_enter rfl) rfl rfl hto
  | disarmTimesOut hq hto =>
    exact sequencerInv_of_not_inSelfTest rfl nofun hpost (dlyInRange_of_free (.inr (.inr rfl))) nofun
  | disarmCompares hq hto =>
    exact h.drainNext (.inr hq) (.inr (.inr rfl)) hpost (dlyInRange_of_free (.inr (.inl rfl))) rfl rfl hto

/-- Every register command has bit 15 clear (R63). -/
theorem bit15_of_register {w : CmdWord} (h : opField w = 0b00#2 ∨ opField w = 0b01#2) : w.getLsbD 15 = false := by
  have hbit : w.getLsbD 15 = (opField w).getLsbD 1 := by simp [opField]
  obtain h | h := h <;> rw [hbit, h] <;> rfl

theorem EdgeRule.sequencerInv (he : EdgeRule s t) (h : SequencerInv s) : SequencerInv t := by
  have hused := h.bteUsed
  cases he with
  | reset hr => exact sequencerInv_of_not_inSelfTest rfl nofun nofun (dlyInRange_enter (s := s) (q := .initRst) rfl) nofun
  | acceptRegister hr hq hv hop =>
    exact sequencerInv_of_not_inSelfTest rfl nofun nofun (dlyInRange_enter rfl) fun _ => bit15_of_register hop
  | acceptSelfTest hr hq hv hop => exact sequencerInv_of_beforePolls rfl nofun (dlyInRange_enter rfl) hop nofun rfl rfl
  | acceptReserved hr hq hv hop =>
    exact sequencerInv_of_not_inSelfTest rfl nofun s.recoverBte_bte_ne (dlyInRange_of_free (.inr (.inr rfl))) nofun
  | headerDone hr ht hb hx =>
    exact (h.between ht (.inr (.inl rfl)) ((dlyInRange_of_between ht (.inl hb)).1 h.dlyInRange)).of_unread ..
  | windowOpens hr ht hb hd => exact (h.counting ht (.inr (.inl rfl)) le_rfl).of_unread ..
  | setupEnds hr ht hb hd => exact h.between ht (.inl rfl) hd
  | exchangeWaits hr ht hb hx => exact h
  | gapEnds hr ht hb =>
    exact h.between ht (.inr (.inr rfl)) ((dlyInRange_of_between ht (.inr (.inl hb))).1 h.dlyInRange)
  | dataDone hr ht hb hx => exact (h.counting ht (.inr (.inr (.inl rfl))) le_rfl).of_unread ..
  | windowCloses hr ht hb hd => exact (h.counting ht (.inr (.inr (.inr rfl))) le_rfl).of_unread ..
  | completes hr ht hb hd t hc => exact hc.sequencerInv h
  | delayCounts hr ht hb hd =>
    exact h.counting ht hb ((Nat.sub_le _ _).trans ((dlyInRange_of_counting ht hb).1 h.dlyInRange))
  | engineRecovers hr ht hb => exact h.recoverBte
  | settleCounts hr hq hd =>
    have hle := (Nat.sub_le _ 1).trans ((dlyInRange_of_settling hq).1 h.dlyInRange)
    have hcount : SequencerInv s.countDown :=
      { h with dlyInRange := (dlyInRange_of_settling (s := s.countDown) hq).2 hle }
    exact hcount.recoverBte
  | initSettled hr hq hd =>
    exact .recoverBte (sequencerInv_of_not_inSelfTest rfl nofun hused (dlyInRange_of_free (.inl rfl)) nofun)
  | testSettled hr hq hd => exact h.setupNext (by rw [hq]; rfl) rfl nofun (dlyInRange_enter rfl) nofun rfl rfl rfl
  | idles hr hq hv => exact h.recoverBte
  | compares hr hq =>
    exact .recoverBte (sequencerInv_of_not_inSelfTest rfl nofun hused (dlyInRange_of_free (.inr (.inr rfl))) nofun)
  | responseTaken hr hq hy =>
    exact .recoverBte (sequencerInv_of_not_inSelfTest rfl nofun hused (dlyInRange_of_free (.inl rfl)) nofun)
  | responseHeld hr hq hy => exact h.recoverBte
  | seqRecovers k hr hq => exact sequencerInv_of_not_inSelfTest rfl nofun nofun (dlyInRange_enter rfl) nofun

/-- Settles O58: rule by rule, outside the self-test, before its first poll, and from the first poll on. -/
theorem stepKeepsTheSequencerInvariant : Obligations.StepKeepsTheSequencerInvariant := by
  intro s t h ht
  exact (step_eq_next_iff.1 ht).sequencerInv h.sample

/-- Settles O59: the reset state is outside the self-test, `DLY` just loaded. -/
theorem resetStateMeetsTheSequencerInvariant : Obligations.ResetStateMeetsTheSequencerInvariant :=
  sequencerInv_of_not_inSelfTest rfl nofun nofun ((dlyInRange_of_counting rfl (.inl rfl)).2 le_rfl) nofun

/-! ### The width of DLY (R25) -/

/-- `DLY` is loaded with one of two values or never grows. -/
def DlyLoaded (s t : State) : Prop := t.dly = s.build.tCsLess1 ∨ t.dly = s.build.tSettleLess1 ∨ t.dly ≤ s.dly

theorem dlyLoaded_recoverBte (hb : t.build = s.build) (h : DlyLoaded s t) : DlyLoaded s t.recoverBte := by
  by_cases hu : t.bte = .unused
  · rw [t.recoverBte_of_unused hu]
    exact .inl (congrArg Build.tCsLess1 hb)
  · rwa [t.recoverBte_of_used hu]

theorem CompletionRule.dlyLoaded (h : CompletionRule s t) : DlyLoaded s t := by
  cases h
  case initReset | testReset => exact .inr (.inl rfl)
  case host | disarmTimesOut | disarmCompares => exact .inr (.inr le_rfl)
  all_goals exact .inl rfl

theorem EdgeRule.dlyLoaded (h : EdgeRule s t) : DlyLoaded s t := by
  have hkept : DlyLoaded s s := .inr (.inr le_rfl)
  have hcount : DlyLoaded s s.countDown := .inr (.inr (Nat.sub_le _ _))
  cases h with
  | completes hr ht hb hd t hc => exact hc.dlyLoaded
  | reset | acceptRegister | acceptSelfTest | windowOpens | dataDone | windowCloses | testSettled | seqRecovers =>
    exact .inl rfl
  | headerDone | setupEnds | exchangeWaits | gapEnds => exact hkept
  | delayCounts => exact hcount
  | settleCounts => exact dlyLoaded_recoverBte rfl hcount
  | acceptReserved | engineRecovers | idles | responseHeld => exact dlyLoaded_recoverBte rfl hkept
  | initSettled | compares | responseTaken => exact dlyLoaded_recoverBte rfl (.inr (.inr le_rfl))

/-- Settles O60: both values loaded fit the width, and counting down keeps within it. -/
theorem delayCounterFitsItsWidth : Obligations.DelayCounterFitsItsWidth := by
  refine ⟨fun s t hs ht => ?_, State.reset.build.loads_fit.1⟩
  rw [goldenAndParametersNeverChange s t ht]
  obtain ⟨hcs, hsettle⟩ := s.build.loads_fit
  obtain h | h | h := (step_eq_next_iff.1 ht).dlyLoaded
  · rwa [h, State.sample_build]
  · rwa [h, State.sample_build]
  · rw [State.sample_dly] at h
    exact h.trans_lt hs

end Sys2Proof.Machine
end

section
/-! What writes each register (spec/10_state.md R21, R29, R30, R31) and where a response begins (spec/60_exceptions.md R127). -/

namespace Sys2Proof.Machine

variable {s t : State}

/-! ### CMD (R21) -/

theorem CompletionRule.cmd (h : CompletionRule s t) : t.cmd = s.cmd := by
  cases h <;> rfl

/-- Without reset and without a command accepted, CMD is kept. -/
theorem EdgeRule.cmd (h : EdgeRule s t) (hr : s.pins.rst = false) (hc : ¬ (s.seq = .idle ∧ s.pins.cmdValid = true)) :
    t.cmd = s.cmd := by
  cases h with
  | reset hr' => simp [hr] at hr'
  | acceptRegister _ hq hv | acceptSelfTest _ hq hv | acceptReserved _ hq hv => exact absurd ⟨hq, hv⟩ hc
  | completes _ _ _ _ t h => exact h.cmd
  | engineRecovers | settleCounts | initSettled | idles | compares | responseTaken | responseHeld =>
    exact State.recoverBte_cmd _
  | _ => rfl

/-- A command accepted is the word in CMD, whatever its `op` (R99). -/
theorem EdgeRule.cmd_of_accepted (h : EdgeRule s t) (hr : s.pins.rst = false) (hq : s.seq = .idle)
    (hv : s.pins.cmdValid = true) : t.cmd = s.pins.cmdWord := by
  cases h with
  | acceptRegister | acceptSelfTest | acceptReserved => rfl
  | _ => simp_all [SeqState.isTxn]

/-- Settles O38: a reset edge, the acceptance of a command, and every other edge. -/
theorem commandRegisterChangesOnlyAtAcceptance : Obligations.CommandRegisterChangesOnlyAtAcceptance := by
  intro s
  obtain ⟨t, ht, he⟩ := exists_step s
  refine ⟨t, ht, ?_⟩
  cases hr : s.sample.pins.rst
  · by_cases hc : s.seq = .idle ∧ s.sample.pins.cmdValid = true
    · obtain ⟨hq, hv⟩ := hc
      simp [he.cmd_of_accepted hr (by simpa using hq) hv, State.cmdReady_eq_true.2 hq, hv]
    · have hready : (s.cmdReady && s.sample.pins.cmdValid) = false := by
        rwa [Bool.eq_false_iff, Ne, Bool.and_eq_true, State.cmdReady_eq_true]
      simp [he.cmd hr (by simpa using hc), hready]
  · rw [step_of_rst hr] at ht
    cases ht
    rfl

/-! ### RDATA (R29) -/

theorem CompletionRule.rdata (h : CompletionRule s t) : t.rdata = s.rdata := by
  cases h <;> rfl

/-- Without reset and without a data exchange that completes, RDATA is kept. -/
theorem EdgeRule.rdata (h : EdgeRule s t) (hr : s.pins.rst = false)
    (hn : ¬ (s.seq.isTxn = true ∧ s.bte = .data ∧ s.pins.xDone = true)) : t.rdata = s.rdata := by
  cases h with
  | reset hr' => simp [hr] at hr'
  | dataDone _ ht hb hx => exact absurd ⟨ht, hb, hx⟩ hn
  | completes _ _ _ _ t h => exact h.rdata
  | acceptReserved | engineRecovers | settleCounts | initSettled | idles | compares | responseTaken | responseHeld =>
    exact State.recoverBte_rdata _
  | _ => rfl

/-- Settles O39: a reset edge, the end of a data exchange, and every other edge. -/
theorem readDataChangesOnlyByReadTransactions : Obligations.ReadDataChangesOnlyByReadTransactions := by
  intro s
  obtain ⟨t, ht, he⟩ := exists_step s
  refine ⟨t, ht, ?_⟩
  cases hr : s.sample.pins.rst
  · by_cases hn : s.seq.isTxn = true ∧ s.bte = .data ∧ s.sample.pins.xDone = true
    · obtain ⟨hq, hb, hx⟩ := hn
      have hend := stepSampled_of_data hr (by rwa [State.sample_seq]) (by rwa [State.sample_bte]) hx
      obtain rfl : s.sample.endData = t := by simpa [step, hend] using ht
      simp [hq, hb, hx]
    · have hno : (s.seq.isTxn && (s.bte == .data) && s.sample.pins.xDone) = false := by
        rw [Bool.eq_false_iff]
        simpa [and_assoc] using hn
      simp [he.rdata hr (by simpa using hn), hno]
  · rw [step_of_rst hr] at ht
    cases ht
    rfl

/-! ### RESULT (R31) -/

/-- Only the completion of a drain read writes RESULT. -/
theorem EdgeRule.result (h : EdgeRule s t)
    (hn : ¬ (s.pins.rst = false ∧ s.seq = .stDrain ∧ s.bte = .post ∧ s.dly = 0)) : t.result = s.result := by
  cases h with
  | completes hr _ hb hd t h =>
    cases h with
    | drainNext hq | drainLast hq => exact absurd ⟨hr, hq, hb, hd⟩ hn
    | _ => rfl
  | acceptReserved | engineRecovers | settleCounts | initSettled | idles | compares | responseTaken | responseHeld =>
    exact State.recoverBte_result _
  | _ => rfl

/-- The completion of a drain read stores RDATA, whether or not another follows (R113). -/
theorem EdgeRule.result_of_drain (h : EdgeRule s t) (hr : s.pins.rst = false) (hq : s.seq = .stDrain) (hb : s.bte = .post)
    (hd : s.dly = 0) : t.result = s.storeResult.result := by
  have hstep := stepSampled_of_completes hr (by rw [hq]; rfl) hb hd
  obtain rfl : s.complete = t := by simpa [h.stepSampled] using hstep.symm
  have hdone : s.complete = s.drainDone := by simp [State.complete, hq]
  rw [hdone]
  obtain ⟨-, h⟩ | ⟨-, h⟩ := s.drainDone_cases <;> rw [h] <;> rfl

/-- Settles O40: the completion edge of a drain read, and every other edge. -/
theorem resultChangesOnlyByDrainReads : Obligations.ResultChangesOnlyByDrainReads := by
  intro s
  obtain ⟨t, ht, he⟩ := exists_step s
  refine ⟨t, ht, fun i => ?_⟩
  by_cases hn : s.sample.pins.rst = false ∧ s.seq = .stDrain ∧ s.bte = .post ∧ s.dly = 0
  · obtain ⟨hr, hq, hb, hd⟩ := hn
    have hresult := he.result_of_drain hr (by simpa using hq) (by simpa using hb) (by simpa using hd)
    simp [hresult, hr, hq, hb, hd, Vector.getElem_set, eq_comm]
  · rw [he.result (by simpa using hn), State.sample_result]
    exact (if_neg fun ⟨hr, hq, hb, hd, _⟩ => hn ⟨hr, hq, hb, hd⟩).symm

/-! ### The response registers (R30) -/

/-- An edge without reset keeps the response registers, or begins a response. -/
theorem EdgeRule.response (h : EdgeRule s t) (hr : s.pins.rst = false) :
    (t.rspStatus = s.rspStatus ∧ t.rspData = s.rspData) ∨ (s.seq ≠ .resp ∧ t.seq = .resp) := by
  cases h with
  | reset hr' => simp [hr] at hr'
  | completes _ _ _ _ t h =>
    cases h with
    | host hq | disarmTimesOut hq => exact .inr ⟨by simp [hq], rfl⟩
    | _ => exact .inl ⟨rfl, rfl⟩
  | acceptReserved _ hq => exact .inr ⟨by simp [hq], rfl⟩
  | compares _ hq => exact .inr ⟨by simp [hq], State.recoverBte_seq _⟩
  | engineRecovers | settleCounts | initSettled | idles | responseTaken | responseHeld =>
    exact .inl ⟨State.recoverBte_rspStatus _, State.recoverBte_rspData _⟩
  | _ => exact .inl ⟨rfl, rfl⟩

/-- Settles O43: an edge that begins no response keeps the pair. -/
theorem responseRegistersChangeOnlyByRespond : Obligations.ResponseRegistersChangeOnlyByRespond := by
  intro s t ht hr hne
  obtain ⟨hst, hd⟩ | ⟨hs, ht⟩ := (step_eq_next_iff.1 ht).response hr
  · rw [State.sample_rspStatus] at hst
    rw [State.sample_rspData] at hd
    simp [hst, hd] at hne
  · exact ⟨by simpa using hs, ht⟩

/-- The four places where a response begins, with its status and data. -/
theorem EdgeRule.responds (h : EdgeRule s t) (hs : s.seq ≠ .resp) (ht : t.seq = .resp) :
    (s.seq = .idle ∧ s.pins.cmdValid = true ∧ opField s.pins.cmdWord = 0b11 ∧ t.rspStatus = .illegal ∧
      t.rspData = 0x00) ∨
    (s.seq = .host ∧ s.bte = .post ∧ s.dly = 0 ∧ t.rspStatus = .ok ∧
      t.rspData = (if s.cmd.getLsbD 14 then s.rdata else 0x00)) ∨
    (s.seq = .stDisarm ∧ s.bte = .post ∧ s.dly = 0 ∧ s.toFlag = true ∧ t.rspStatus = .timeout ∧ t.rspData = 0x00) ∨
    (s.seq = .stVerify ∧ (t.rspStatus = .ok ∨ t.rspStatus = .mismatch) ∧ t.rspData = 0x00) := by
  cases h with
  | acceptReserved _ hq hv hop => exact .inl ⟨hq, hv, hop, rfl, rfl⟩
  | completes _ _ hb hd t h =>
    cases h with
    | host hq => exact .inr (.inl ⟨hq, hb, hd, rfl, rfl⟩)
    | disarmTimesOut hq hto => exact .inr (.inr (.inl ⟨hq, hb, hd, hto, rfl, rfl⟩))
    | fixed _ hn => cases hn <;> simp at ht
    | _ => simp at ht
  | compares _ hq =>
    refine .inr (.inr (.inr ⟨hq, ?_, State.recoverBte_rspData _⟩))
    rw [State.recoverBte_rspStatus]
    cases hp : s.passes <;> simp [State.verify, hp]
  | _ => simp_all

/-- Settles O37: in each of the four places no window is open, and the edge is silent on the bus. -/
theorem responsesBeginAfterTheLastWindowCloses : Obligations.ResponsesBeginAfterTheLastWindowCloses := by
  intro s t ht hs hresp
  have he := step_eq_next_iff.1 ht
  have hwhere := he.responds (by rwa [State.sample_seq]) hresp
  simp only [State.sample_seq, State.sample_bte, State.sample_dly, State.sample_cmd, State.sample_rdata,
    State.sample_toFlag] at hwhere
  have hcs : s.csN = true := by
    obtain ⟨hq, -⟩ | ⟨-, hb, -⟩ | ⟨-, hb, -⟩ | ⟨hq, -⟩ := hwhere
    · exact State.csN_of_not_isTxn (by rw [hq]; rfl)
    · exact State.csN_of_not_inWindow (by rw [hb]; rfl)
    · exact State.csN_of_not_inWindow (by rw [hb]; rfl)
    · exact State.csN_of_not_isTxn (by rw [hq]; rfl)
  have htcs : t.csN = true := State.csN_of_not_isTxn (by rw [hresp]; rfl)
  refine ⟨hcs, ?_, hwhere⟩
  simpa [hcs, htcs, State.xReq_of_csN hcs] using he.bus.trace_eq

end Sys2Proof.Machine
end

section
/-! Single edges: what is fetched and run, what an instruction leaves unchanged, recovery, and the edges of the self-test. -/

namespace Sys2Proof.Machine

variable {s t : State}

/-! ### Fetching (spec/10_state.md R17, spec/40_bus_transactions.md R81) -/

/-- Settles O12: of the three answers of `fetch` the handshakes select the one that applies. -/
theorem wordsAreFetchedAtTheHandshakes : Obligations.WordsAreFetchedAtTheHandshakes := by
  intro s w
  rw [State.cmdReady_eq_true]
  constructor
  · intro h
    obtain ⟨hq, hv, hf⟩ | ⟨ht, hb, hx, hf⟩ | ⟨-, -, hf⟩ := s.fetch_cases <;> rw [hf] at h <;> cases h
    · exact .inl ⟨hq, hv, rfl⟩
    · exact .inr ⟨State.xReq_of_hdr ht hb, hb, hx, by rw [State.xTx_of_hdr ht hb]⟩
  · rintro (⟨hq, hv, rfl⟩ | ⟨hreq, hb, hx, rfl⟩)
    · simp [State.fetch, State.cmdReady_eq_true.2 hq, hv]
    · obtain ⟨ht, -⟩ := State.xReq_eq_true.1 hreq
      have hready : s.cmdReady = false := by
        rw [Bool.eq_false_iff, Ne, State.cmdReady_eq_true]
        intro hq
        simp [hq, SeqState.isTxn] at ht
      simp [State.fetch, hready, ht, hb, hx]

/-- Settles O11: `stepSampled` with its three tests answered. -/
theorem stepRunsTheFetchedInstruction : Obligations.StepRunsTheFetchedInstruction := by
  intro s w i hr hf hd
  have hstep : step s = exec i s.sample.recoverBte := by simp [step, stepSampled, hr, hf, hd]
  refine ⟨hstep, fun hb => ?_⟩
  rw [hstep, State.recoverBte_of_used _ (by rwa [State.sample_bte])]

/-- Settles O25: the two meanings are by definition the end of the exchange, which is what the step does. -/
theorem headerExchangeCompletesInTheGap : Obligations.HeaderExchangeCompletesInTheGap := by
  refine ⟨fun s a => ⟨rfl, rfl⟩, fun s ht hb hr hx => ?step⟩
  case step =>
    have hstep : step s = .next (s.sample.endHeader s.txn.headerByte) := by
      rw [step, stepSampled_of_header hr (by rwa [State.sample_seq]) (by rwa [State.sample_bte]) hx, State.sample_txn]
    rw [hstep, ← State.sample_trace]
    refine ⟨?_, rfl⟩
    cases s.txn <;> rfl

/-! ### What an instruction leaves unchanged (R99, R81, R128) -/

/-- Settles O24, form by form: an acceptance writes CMD and SEQ and what starts the command, a header's end BTE and the trace. -/
theorem instructionFrames : Obligations.InstructionFrames := by
  intro s t
  refine ⟨fun i hi h => ?command, fun i a hi h => ?header⟩
  case command =>
    obtain ⟨a, d, rfl⟩ | ⟨a, x, rfl⟩ | ⟨b, rfl⟩ | ⟨w, rfl⟩ := hi <;> cases h
    · exact ⟨rfl, rfl, rfl, rfl, rfl, rfl, rfl, rfl, fun _ => ⟨rfl, rfl⟩, fun _ => ⟨rfl, rfl⟩, nofun⟩
    · exact ⟨rfl, rfl, rfl, rfl, rfl, rfl, rfl, rfl, fun _ => ⟨rfl, rfl⟩, fun _ => ⟨rfl, rfl⟩, nofun⟩
    · exact ⟨rfl, rfl, rfl, rfl, rfl, rfl, rfl, rfl, fun hn => absurd rfl (hn b), fun _ => ⟨rfl, rfl⟩, nofun⟩
    · exact ⟨rfl, rfl, rfl, rfl, rfl, rfl, rfl, rfl, fun _ => ⟨rfl, rfl⟩, fun hn => absurd rfl (hn w),
        fun _ _ => ⟨rfl, rfl⟩⟩
  case header =>
    obtain rfl | rfl := hi <;> cases h <;>
      exact ⟨rfl, rfl, rfl, rfl, rfl, rfl, rfl, rfl, rfl, rfl, rfl, rfl, rfl, rfl⟩

/-! ### Reset (R41, R146) -/

/-- Settles O17: the reset edge records the rise of an open window's `cs_n` and nothing else. -/
theorem resetCutsAnOpenWindow : Obligations.ResetCutsAnOpenWindow := by
  intro s hcs hr
  refine ⟨_, step_of_rst hr, State.resetEdge_csN, State.resetEdge_xReq, State.resetEdge_rspValid,
    State.resetEdge_cmdReady, ?trace⟩
  case trace => simp [hcs]

/-- R8's constraints hold of any values of the open constants, `T_SETTLE` being made from its lower bound. -/
theorem build_legal : Config.build.legal := by
  constructor
  · exact Nat.succ_pos _
  · simp only [Config.build, Build.tSettle]
    omega

/-- Settles O18: the registers by definition, the parameters by their arrangement. -/
theorem powerUpStateHasTheResetValues : Obligations.PowerUpStateHasTheResetValues :=
  ⟨rfl, rfl, rfl, rfl, rfl, rfl, rfl, rfl, rfl, rfl, build_legal, Nat.succ_pos _, Nat.succ_pos _⟩

/-! ### The unused codes (R23, R24) -/

/-- `BTE` code 7 is gone after any edge without reset, `DLY` loaded. -/
theorem EdgeRule.recovers (h : EdgeRule s t) (hr : s.pins.rst = false) (hb : s.bte = .unused) :
    t.bte = .pre ∧ t.dly = s.build.tCsLess1 := by
  have hrec {u : State} (hu : u.bte = .unused) : u.recoverBte.bte = .pre ∧ u.recoverBte.dly = u.build.tCsLess1 := by
    rw [u.recoverBte_of_unused hu]
    exact ⟨rfl, rfl⟩
  cases h with
  | acceptRegister | acceptSelfTest | testSettled | seqRecovers => exact ⟨rfl, rfl⟩
  | acceptReserved | engineRecovers | idles | responseHeld => exact hrec hb
  | settleCounts => exact hrec (u := s.countDown) hb
  | initSettled | responseTaken => exact hrec (u := { s with seq := .idle }) hb
  | compares => exact hrec (u := s.verify) hb
  | _ => simp_all

/-- In `S_IDLE`, `S_RESP` and `S_ST_VERIFY` the edge does not depend on whether `BTE` code 7 has recovered before it. -/
theorem EdgeRule.of_recovered (h : EdgeRule s t) (hb : s.bte = .unused)
    (hq : s.seq = .idle ∨ s.seq = .resp ∨ s.seq = .stVerify) (hr : s.pins.rst = false) :
    EdgeRule { s with bte := .pre, dly := s.build.tCsLess1 } t := by
  have hrec := s.recoverBte_of_unused hb
  have hother : s.seq.isTxn = false ∧ ¬ (s.seq = .initWait ∨ s.seq = .stWait) := by
    obtain hq | hq | hq := hq <;> rw [hq] <;> simp [SeqState.isTxn]
  cases h with
  | acceptRegister hr hq hv hop => exact .acceptRegister hr hq hv hop
  | acceptSelfTest hr hq hv hop => exact .acceptSelfTest hr hq hv hop
  | acceptReserved hr hq hv hop =>
    rw [hrec]
    exact .acceptReserved hr hq hv hop
  | idles hr hq hv =>
    rw [hrec]
    exact .idles hr hq hv
  | compares hr hq =>
    rw [State.recoverBte_of_unused _ (show s.verify.bte = .unused from hb)]
    exact .compares hr hq
  | responseTaken hr hq hy =>
    rw [State.recoverBte_of_unused _ (show State.bte { s with seq := .idle } = .unused from hb)]
    exact .responseTaken hr hq hy
  | responseHeld hr hq hy =>
    rw [hrec]
    exact .responseHeld hr hq hy
  | _ => simp_all

theorem State.sample_recovered (s : State) :
    State.sample { s with bte := .pre, dly := s.build.tCsLess1 } =
      { s.sample with bte := .pre, dly := s.sample.build.tCsLess1 } := by
  unfold State.sample
  cases s.inputs <;> rfl

/-- Settles O44: each clause is one rule, the recovery in it carried out. -/
theorem unusedCodesRecover : Obligations.UnusedCodesRecover := by
  intro s hr
  have hload : s.build.tCs - 1 = s.sample.build.tCsLess1 := by rw [State.sample_build]; rfl
  rw [hload]
  refine ⟨fun k hq => ?seq, fun hb => ?bte⟩
  case seq => exact (EdgeRule.seqRecovers k hr (by rwa [State.sample_seq])).stepSampled
  case bte =>
    have hb' : s.sample.bte = .unused := by rwa [State.sample_bte]
    refine ⟨?some, fun ht => ?txn, fun hq => ?still, fun hq hd => ?settling, fun hq hd => ?initDone, fun hq hd => ?testDone⟩
    case some =>
      obtain ⟨t, ht, he⟩ := exists_step s
      exact ⟨t, ht, he.recovers hr hb'⟩
    case txn =>
      rw [← State.recoverBte_of_unused _ hb']
      exact (EdgeRule.engineRecovers hr (by rwa [State.sample_seq]) hb').stepSampled
    case still =>
      obtain ⟨t, ht, he⟩ := exists_step s
      have he' := (he.of_recovered hb' (by rwa [State.sample_seq]) hr).stepSampled
      rw [← State.sample_recovered] at he'
      rw [ht, State.sample_build]
      exact he'.symm
    case settling =>
      have he := EdgeRule.settleCounts hr (by rwa [State.sample_seq]) (by rwa [State.sample_dly])
      rw [State.recoverBte_of_unused _ (show s.sample.countDown.bte = .unused from hb')] at he
      exact he.stepSampled
    case initDone =>
      have he := EdgeRule.initSettled hr (by rwa [State.sample_seq]) (by rwa [State.sample_dly])
      rw [State.recoverBte_of_unused _ (show State.bte { s.sample with seq := .idle } = .unused from hb')] at he
      exact he.stepSampled
    case testDone => exact (EdgeRule.testSettled hr (by rwa [State.sample_seq]) (by rwa [State.sample_dly])).stepSampled

/-! ### The completion edges of the self-test (spec/41_self_test.md R103 to R114) -/

/-- At a completion edge without reset the sequencer acts by its rule. -/
theorem step_of_completionRule (hr : s.sample.pins.rst = false) (hb : s.bte = .post) (hd : s.dly = 0)
    (ht : s.seq.isTxn = true) (h : CompletionRule s.sample t) : step s = .next t :=
  step_eq_next_iff.2 (.completes hr (by rwa [State.sample_seq]) (by rwa [State.sample_bte]) (by rwa [State.sample_dly]) t h)

/-- Settles O45: one rule for each clause. -/
theorem fixedStepsFollowInOrder : Obligations.FixedStepsFollowInOrder := by
  intro s hb hd hr
  rw [← s.sample_build]
  intro next
  have hdone {t : State} (ht : s.seq.isTxn = true) (h : CompletionRule s.sample t) : step s = .next t :=
    step_of_completionRule hr hb hd ht h
  have hfixed {p q : SeqState} (hn : FixedNext p q) (hp : p.isTxn = true) (hq : s.seq = p) : step s = next q :=
    hdone (hq ▸ hp) (.fixed (s.sample_seq.trans hq) hn)
  refine ⟨fun hq => ?rst, fun hq => ?wait, fun hq => ?flush, hfixed .afterMem rfl, hfixed .afterArm rfl,
    hfixed .afterSeed rfl, hfixed .afterCalc rfl⟩
  case rst => exact hdone (by rw [hq]; rfl) (.testReset (s.sample_seq.trans hq))
  case wait => exact (EdgeRule.testSettled hr (s.sample_seq.trans hq) (s.sample_dly.trans hd)).stepSampled
  case flush => exact hdone (by rw [hq]; rfl) (.flush (s.sample_seq.trans hq))

theorem levelReached_eq_true {v : Byte} : levelReached v = true ↔ 64 ≤ v.toNat := by simp [levelReached]

theorem State.boundHit_eq_false : s.boundHit = false ↔ s.bound = 0 ∨ s.pollsNext ≠ s.bound := by
  rw [Bool.eq_false_iff, Ne, State.boundHit_eq_true, not_and_or, not_not]

/-- Settles O47: the three rules of a poll. -/
theorem pollDrainsThenTimesOutThenRepeats : Obligations.PollDrainsThenTimesOutThenRepeats := by
  intro s hq hb hd hr p bound
  have hp : p = s.sample.pollsNext := by simp only [State.pollsNext, State.sample_polls]; rfl
  have hbound : bound = s.sample.bound := by simp only [State.bound, State.sample_cmd]; rfl
  have hload : s.build.tCs - 1 = s.sample.build.tCsLess1 := by rw [State.sample_build]; rfl
  have hdone {t : State} (h : CompletionRule s.sample t) : step s = .next t :=
    step_of_completionRule hr hb hd (by rw [hq]; rfl) h
  rw [← s.sample_seq] at hq
  rw [hp, hbound, hload, ← s.sample_rdata]
  refine ⟨fun hl => ?ready, fun hl hne heq => ?timesOut, fun hl hne => ?again⟩
  case ready => exact hdone (.pollReady hq (levelReached_eq_true.2 hl))
  case timesOut =>
    exact hdone (.pollTimesOut hq (levelReached_eq_false.2 hl) (State.boundHit_eq_true.2 ⟨hne, heq⟩))
  case again => exact hdone (.pollAgain hq (levelReached_eq_false.2 hl) (State.boundHit_eq_false.2 hne))

/-- Settles O50: the two rules of the disarm. -/
theorem disarmTimesOutOrCompares : Obligations.DisarmTimesOutOrCompares := by
  intro s hq hb hd hr
  have ht : s.seq.isTxn = true := by rw [hq]; rfl
  rw [← s.sample_toFlag]
  rw [← s.sample_seq] at hq
  exact ⟨fun hto => step_of_completionRule hr hb hd ht (.disarmTimesOut hq hto),
    fun hto => step_of_completionRule hr hb hd ht (.disarmCompares hq hto)⟩

/-- Settles O51: the response depends on whether the buffers are equal, and they are where every entry is. -/
theorem verifyIsEqualityOfAllSixtyFourBytes : Obligations.VerifyIsEqualityOfAllSixtyFourBytes := by
  intro s hq hb hr
  have hstep : step s = .next s.sample.verify := by
    have hu : s.sample.verify.recoverBte = s.sample.verify :=
      State.recoverBte_of_used _ (show s.sample.bte ≠ .unused by rwa [State.sample_bte])
    rw [← hu]
    exact (EdgeRule.compares hr (s.sample_seq.trans hq)).stepSampled
  rw [hstep, State.verify]
  refine ⟨fun heq => ?ok, fun ⟨i, hne⟩ => ?mismatch⟩
  case ok =>
    have hp : s.sample.passes = true := by
      rw [State.passes_eq_true, State.sample_result, State.sample_build]
      exact Vector.ext fun i hi => heq ⟨i, hi⟩
    rw [hp]
    rfl
  case mismatch =>
    have hp : s.sample.passes = false := by
      rw [Bool.eq_false_iff, Ne, State.passes_eq_true, State.sample_result, State.sample_build]
      exact fun heq => hne (by rw [heq])
    rw [hp]
    rfl

end Sys2Proof.Machine
end

section
/-! An exchange is held until it completes (spec/40_bus_transactions.md R80), the two hangs (spec/70_reset_and_hazards.md
R154), and the delays and transactions as runs (R77 to R86, R94). -/

namespace Sys2Proof.Machine

variable {s t : State} {ps ws : List Pins}

/-! ### One edge of an exchange -/

theorem step_of_exchange_waiting (hreq : s.xReq = true) (hr : s.sample.pins.rst = false) (hx : s.sample.pins.xDone = false) :
    step s = .next s.sample := by
  obtain ⟨ht, he⟩ := State.xReq_eq_true.1 (s.sample_xReq.trans hreq)
  exact (EdgeRule.exchangeWaits hr ht (BteState.exchanging_eq_true.1 he) hx).stepSampled

/-- The end of either exchange releases the request, the window still open, and is one event. -/
theorem exists_step_of_exchange_done (hreq : s.xReq = true) (hr : s.sample.pins.rst = false)
    (hx : s.sample.pins.xDone = true) :
    ∃ t, step s = .next t ∧ t.xReq = false ∧ t.csN = false ∧ t.trace = .x s.xTx s.sample.pins.xRx :: s.trace := by
  obtain ⟨ht, he⟩ := State.xReq_eq_true.1 (s.sample_xReq.trans hreq)
  rw [← s.sample_xTx, ← s.sample_trace]
  obtain hb | hb := BteState.exchanging_eq_true.1 he
  · refine ⟨_, stepSampled_of_header hr ht hb hx, ?_, State.csN_of_inWindow ht rfl, ?_⟩
    · simp [State.xReq, BteState.exchanging]
    · rw [State.xTx_of_hdr ht hb, State.endHeader_trace]
  · refine ⟨_, stepSampled_of_data hr ht hb hx, ?_, State.csN_of_inWindow ht rfl, ?_⟩
    · simp [State.xReq, BteState.exchanging]
    · rw [State.xTx_of_data ht hb, State.endData_trace]

/-- Settles O29: with `x_done` 0 the registers do not change at all. -/
theorem exchangeIsHeldUntilDoneThenReleased : Obligations.ExchangeIsHeldUntilDoneThenReleased := by
  intro s hreq hr
  exact ⟨fun hx => ⟨_, step_of_exchange_waiting hreq hr hx, by rwa [State.sample_xReq], s.sample_xTx, s.sample_trace⟩,
    exists_step_of_exchange_done hreq hr⟩

/-- An exchange is requested with `tx` on `x_tx`, and the trace is `es`. -/
structure State.Requests (s : State) (tx : Byte) (es : List BusEvent) : Prop where
  xReq : s.xReq = true
  xTx : s.xTx = tx
  trace : s.trace = es

theorem State.Requests.step_waiting {tx : Byte} {es : List BusEvent} {p : Pins} (h : s.Requests tx es)
    (hr : p.rst = false) (hx : p.xDone = false) (hs : step { s with inputs := [p] } = .next t) : t.Requests tx es := by
  rw [step_of_exchange_waiting (s := { s with inputs := [p] }) h.xReq hr hx] at hs
  cases hs
  exact ⟨h.xReq, h.xTx, h.trace⟩

/-- Settles O30: the exchange requested at `n` is kept at every edge with `x_done` 0, and the duty forbids keeping it for ever. -/
theorem fairPeripheralCompletesEveryExchange : Obligations.FairPeripheralCompletesEveryExchange := by
  intro f σ n hdrives hduty hrst hreq
  have hkeep (m) (hm : m ≥ n) (h : (σ m).Requests (σ n).xTx (σ n).trace) (hx : (f m).xDone = false) :
      (σ (m + 1)).Requests (σ n).xTx (σ n).trace := h.step_waiting (hrst m hm) hx (hdrives m)
  have hfair (hheld : ∀ m ≥ n, (σ m).Requests (σ n).xTx (σ n).trace) : ∃ m ≥ n, (f m).xDone = true := by
    obtain ⟨m, hm, hgone | hx⟩ := hduty n hreq
    · simp [(hheld m hm).xReq] at hgone
    · exact ⟨m, hm, hx⟩
  obtain ⟨m, hm, hx, hheld⟩ := exists_done_of_kept_until ⟨hreq, rfl, rfl⟩ hkeep hfair
  have hlast := hheld m hm le_rfl
  obtain ⟨t, ht, hreq', -, htrace⟩ :=
    exists_step_of_exchange_done (s := { σ m with inputs := [f m] }) hlast.xReq (hrst m hm) hx
  obtain rfl : σ (m + 1) = t := by simpa [hdrives m] using ht
  refine ⟨m, hm, hx, hreq', ?event, fun k hk hle => ?held⟩
  case event =>
    rw [← hlast.xTx, ← hlast.trace]
    exact htrace
  case held => exact ⟨(hheld k hk hle).xReq, (hheld k hk hle).xTx, (hheld k hk hle).trace⟩

/-! ### The two hangs (R154) -/

theorem State.quiet_of_isTxn (ht : s.seq.isTxn = true) : s.Quiet := by
  rw [State.quiet_iff]
  constructor <;> rintro hq <;> simp [hq, SeqState.isTxn] at ht

/-- Settles O33: with `x_done` 0 all along, the RAC runs from the state back to itself. -/
theorem silentPeripheralHoldsTheExchange : Obligations.SilentPeripheralHoldsTheExchange := by
  intro s ps rest hreq hps hin
  obtain ⟨ht, -⟩ := State.xReq_eq_true.1 hreq
  obtain ⟨hready, hvalid⟩ := State.quiet_of_isTxn ht
  exact ⟨_, (runsThrough_wait hreq hps).runs hin, rfl, rfl, hreq, rfl, hready, hvalid⟩

/-- A response not taken is held. -/
theorem runsThrough_untaken (hq : s.seq = .resp) (hb : s.bte ≠ .unused)
    (hps : ∀ p ∈ ps, p.rst = false ∧ p.rspReady = false) : RunsThrough ps s s := by
  induction ps with
  | nil => exact .nil s
  | cons p ps ih =>
    obtain ⟨⟨hr, hy⟩, hps⟩ := List.forall_mem_cons.1 hps
    refine RunsThrough.append (.single fun rest => ?_) (ih hps)
    have h := (EdgeRule.responseHeld (s := s.withPorts p rest) hr hq hy).stepSampled
    rwa [State.recoverBte_of_used _ (by rwa [State.withPorts_bte])] at h

/-- Settles O35: with `rsp_ready` 0 all along, the RAC runs from the state back to itself. -/
theorem untakenResponseIsHeldForEver : Obligations.UntakenResponseIsHeldForEver := by
  intro s ps rest hvalid hb hps hin
  have hq : s.seq = .resp := State.rspValid_eq_true.1 hvalid
  exact ⟨_, (runsThrough_untaken hq hb hps).runs hin, rfl, rfl, hvalid, by simp [State.cmdReady, State.withPorts, hq]⟩

/-! ### Delays -/

theorem State.edge_of_stWait (hq : s.seq = .stWait) (hd : s.dly = 0) : s.edge = s.enter .stFlush := by
  simp only [State.edge, hq, if_pos hd]
  exact State.recoverBte_of_used _ nofun

/-- Settles O28: `DLY` counts with nothing else changing, and the edge that finds it 0 goes on. -/
theorem softResetSettleLastsTSettle : Obligations.SoftResetSettleLastsTSettle := by
  intro s ws rest hq hb hd hw hin
  have hd' : s.dly = s.build.tSettleLess1 := hd
  have ht : s.seq.isTxn = false := by obtain hq | hq := hq <;> rw [hq] <;> rfl
  refine ⟨fun m hm => ?along, fun hq' => ?init, fun hq' => ?test⟩
  case along =>
    have halong : HoldsAlong (fun v => v.seq = s.seq ∧ v.csN = true ∧ v.trace = s.trace) ws s :=
      holdsAlong_delay (.inr ⟨hq, hb⟩) hd' hw fun _ => ⟨rfl, State.csN_of_not_isTxn ht, rfl⟩
    rw [← hw.1] at hm
    obtain ⟨v, p, qs, hrun, hv⟩ := halong.runs hin hm
    exact ⟨_, hrun, hv⟩
  case init =>
    have hrun := (runsThrough_settle hq hb hd' hw (State.edge_of_initWait (s := { s with dly := 0 }) hq' hb rfl)).runs hin
    rw [hw.1] at hrun
    exact ⟨_, hrun, rfl, rfl⟩
  case test =>
    have hrun := (runsThrough_settle hq hb hd' hw (State.edge_of_stWait (s := { s with dly := 0 }) hq' rfl)).runs hin
    rw [hw.1] at hrun
    exact ⟨_, hrun, rfl, rfl, rfl, rfl⟩

/-- What holds along the second of two runs, counted from the start of the first. -/
theorem HoldsAlong.runs_after {P : State → Prop} {qs rest : List Pins} (h : HoldsAlong P qs t) (hr : RunsThrough ps s t)
    (hin : s.inputs = ps ++ qs ++ rest) {m : Nat} (hm : m < qs.length) :
    ∃ v p rest', Runs (ps.length + m) s (v.withPorts p rest') ∧ P v := by
  rw [List.append_assoc] at hin
  obtain ⟨v, p, rest', hrun, hP⟩ := HoldsAlong.runs (s := t.withPorts (ps.getLastD s.pins) (qs ++ rest)) h rfl hm
  exact ⟨v, p, rest', (hr.runs hin).append hrun, hP⟩

/-- The two delays on the two sides of an edge of `cs_n` last `T_CS` cycles each (R78, R79, R84, R85). -/
theorem delays_around_toggle {rest : List Pins} {b : BteState} {e : BusEvent}
    (ht : s.seq.isTxn = true) (hb : s.bte = .pre ∨ s.bte = .hold) (hb' : b = .setup ∨ b = .post)
    (hd : s.dly = s.build.tCsLess1) (hw : Waits (2 * s.build.tCs) ws) (hin : s.inputs = ws ++ rest)
    (hend : State.txnEdge { s with dly := 0 } = { s with bte := b, dly := s.build.tCsLess1, trace := e :: s.trace }) :
    (∀ m < s.build.tCs, ∃ v, Runs m s v ∧ v.seq = s.seq ∧ v.bte = s.bte) ∧
    (∀ m < s.build.tCs, ∃ v, Runs (s.build.tCs + m) s v ∧ v.seq = s.seq ∧ v.bte = b) := by
  rw [Nat.two_mul] at hw
  obtain ⟨before, after, rfl, hbefore, hafter⟩ := hw.exists_append
  have hcounts : s.bte = .pre ∨ s.bte = .setup ∨ s.bte = .hold ∨ s.bte = .post := hb.imp_right fun h => .inr (.inl h)
  have hfirst : HoldsAlong (fun v => v.seq = s.seq ∧ v.bte = s.bte) before s :=
    holdsAlong_delay (.inl ⟨ht, hcounts⟩) hd hbefore fun _ => ⟨rfl, rfl⟩
  have hsecond : HoldsAlong (fun v => v.seq = s.seq ∧ v.bte = b) after
      { s with bte := b, dly := s.build.tCsLess1, trace := e :: s.trace } :=
    holdsAlong_delay (.inl ⟨ht, .inr (hb'.imp_right .inr)⟩) rfl hafter fun _ => ⟨rfl, rfl⟩
  refine ⟨fun m hm => ?_, fun m hm => ?_⟩
  · obtain ⟨v, p, qs, hrun, hv⟩ := hfirst.runs (hin.trans (List.append_assoc ..)) (hm.trans_eq hbefore.1.symm)
    exact ⟨_, hrun, hv⟩
  · obtain ⟨v, p, qs, hrun, hv⟩ :=
      hsecond.runs_after (runsThrough_delay ht hcounts hd hbefore hend) hin (hm.trans_eq hafter.1.symm)
    rw [hbefore.1] at hrun
    exact ⟨_, hrun, hv⟩

/-- Outside the two exchanges none is requested, and the engine's state alone says whether a window is open. -/
theorem State.bus_of_not_exchanging (ht : s.seq.isTxn = true) {b : BteState} (hb : s.bte = b) (hx : b.exchanging = false) :
    s.csN = !b.inWindow ∧ s.xReq = false := by
  simp [State.csN, State.xReq, ht, hb, hx]

theorem getLast?_eq_getLastD {ps : List Pins} (h : ps ≠ []) (p : Pins) : ps.getLast? = some (ps.getLastD p) := by
  rw [List.getLastD_eq_getLast?, List.getLast?_eq_getLast_of_ne_nil h]
  rfl

/-- Settles O27: the delays before and after each edge of `cs_n`, and the runs through both. -/
theorem settleDelaysBracketEveryWindow : Obligations.SettleDelaysBracketEveryWindow := by
  intro s ws rest ht hd hw hin
  have hd' : s.dly = s.build.tCsLess1 := hd
  have hbus {v : State} {b : BteState} (hx : b.exchanging = false) (hq : v.seq = s.seq) (hb : v.bte = b) :
      v.csN = !b.inWindow ∧ v.xReq = false := State.bus_of_not_exchanging (by rw [hq, ht]) hb hx
  refine ⟨fun hb => ?pre, fun hb => ?hold⟩
  case pre =>
    obtain ⟨hfirst, hsecond⟩ :=
      delays_around_toggle ht (.inl hb) (.inl rfl) hd' hw hin (State.txnEdge_of_pre (s := { s with dly := 0 }) hb rfl)
    refine ⟨fun m hm => ?_, fun m hm => ?_, ?_⟩
    · obtain ⟨v, hrun, hq, hb'⟩ := hfirst m hm
      exact ⟨v, hrun, hbus (b := .pre) rfl hq (hb'.trans hb)⟩
    · obtain ⟨v, hrun, hq, hb'⟩ := hsecond m hm
      exact ⟨v, hrun, hbus (b := .setup) rfl hq hb'⟩
    · have hrun := (runsThrough_opening ht hb hd' hw).runs hin
      rw [hw.1] at hrun
      exact ⟨_, hrun, State.csN_of_inWindow ht rfl, State.xReq_of_hdr ht rfl, rfl⟩
  case hold =>
    obtain ⟨hfirst, hsecond⟩ :=
      delays_around_toggle ht (.inr hb) (.inr rfl) hd' hw hin (State.txnEdge_of_hold (s := { s with dly := 0 }) hb rfl)
    refine ⟨fun m hm => ?_, fun m hm => ?_, ?_⟩
    · obtain ⟨v, hrun, hq, hb'⟩ := hfirst m hm
      exact ⟨v, hrun, hbus (b := .hold) rfl hq (hb'.trans hb)⟩
    · obtain ⟨v, hrun, hq, hb'⟩ := hsecond m hm
      obtain ⟨hcs, hx⟩ := hbus (b := .post) rfl hq hb'
      exact ⟨v, hrun, hcs, hx, hq, hb'⟩
    · have hrun := (runsThrough_closing ht hb hd' hw).runs hin
      rw [hw.1, ← State.complete_withPorts] at hrun
      have hne : ws ≠ [] := by
        rintro rfl
        nomatch hw.1
      exact ⟨_, getLast?_eq_getLastD hne s.pins, hrun⟩

/-- The length of a served transaction (R157). -/
theorem ServesTxn.length {b : Build} {r : Byte × Byte} (h : ServesTxn b r ps) :
    ∃ m n, 1 ≤ m ∧ 1 ≤ n ∧ ps.length = 4 * b.tCs + m + n + 1 := by
  obtain ⟨lead, hdrWait, hdrDone, gap, dataWait, dataDone, tail, rfl, hlead, htail, -⟩ := h
  refine ⟨hdrWait.length + 1, dataWait.length + 1, Nat.le_add_left .., Nat.le_add_left .., ?_⟩
  simp [hlead, htail]
  omega

/-- Settles O26: the run of a served transaction, and what holds along it. -/
theorem transactionRunsOnceToItsCompletionEdge : Obligations.TransactionRunsOnceToItsCompletionEdge := by
  intro s r ps rest ht hb hd hs hin
  refine ⟨hs.length, ?finish, fun m hm => ?along⟩
  case finish =>
    have hrun := (runsThrough_transaction ht hb hd hs).runs hin
    rw [← State.complete_withPorts] at hrun
    have hne : ps ≠ [] := by
      rintro rfl
      obtain ⟨m, n, -, -, hlen⟩ := hs.length
      nomatch hlen
    exact ⟨_, _, hrun, getLast?_eq_getLastD hne s.pins, rfl⟩
  case along =>
    have halong : HoldsAlong (fun v => v.seq = s.seq ∧ v.cmd = s.cmd) ps s :=
      holdsAlong_transaction ht hb hd hs fun _ hq hc => ⟨hq, hc⟩
    obtain ⟨v, p, qs, hrun, hq, hc⟩ := halong.runs hin hm
    obtain ⟨hready, hvalid⟩ := State.quiet_of_isTxn (s := v.withPorts p qs) (by rw [State.withPorts_seq, hq, ht])
    exact ⟨_, hrun, hq, hc, hready, hvalid⟩

end Sys2Proof.Machine
end

section
/-! The assembler, frames, state codes and the transaction selector (spec/30_encoding.md R71 to R76, spec/10_state.md R23, R24,
spec/41_self_test.md R101). -/

namespace Sys2Proof

open Machine

/-- Settles O1: closed words. -/
theorem specWordsDecode : Obligations.SpecWordsDecode := by
  unfold Obligations.SpecWordsDecode
  decide

/-! ### The assembler (R75, R76) -/

/-- Settles O8: closed spellings. -/
theorem assemblerSpellingsGiveTheirWords : Obligations.AssemblerSpellingsGiveTheirWords := by
  unfold Obligations.AssemblerSpellingsGiveTheirWords
  decide

theorem toNat_opAddrData (op : BitVec 2) (a : Addr) (d : Byte) :
    (op ++ a ++ d).toNat = op.toNat * 16384 + a.toNat * 256 + d.toNat := by
  have ha : a.toNat < 2 ^ 6 := a.isLt
  have hd : d.toNat < 2 ^ 8 := d.isLt
  rw [BitVec.toNat_append, BitVec.toNat_append, ← Nat.shiftLeft_add_eq_or_of_lt ha, ← Nat.shiftLeft_add_eq_or_of_lt hd,
    Nat.shiftLeft_eq, Nat.shiftLeft_eq]
  omega

theorem toNat_opBound (op : BitVec 2) (b : Bound) : (op ++ b).toNat = op.toNat * 16384 + b.toNat := by
  have hb : b.toNat < 2 ^ 14 := b.isLt
  rw [BitVec.toNat_append, ← Nat.shiftLeft_add_eq_or_of_lt hb, Nat.shiftLeft_eq]

theorem fieldOf_of_lt {w n k : Nat} (hk : 2 ^ w = k) (h : n < k) : fieldOf w n = some (BitVec.ofNat w n) :=
  if_pos (hk ▸ h)

theorem fieldOf_of_not_lt {w n k : Nat} (hk : 2 ^ w = k) (h : ¬ n < k) : fieldOf w n = none := if_neg (hk ▸ h)

theorem assemble_writeReg (n d : Nat) :
    (AsmCommand.writeReg (.number n) d).assemble.map encode =
      (if n < 64 ∧ d < 256 then some (.command (BitVec.ofNat 16 (n * 256 + d))) else none) := by
  simp only [AsmCommand.assemble, AsmCommand.expand, AsmCommand.core, AddrOperand.value]
  by_cases hn : n < 64
  · by_cases hd : d < 256
    · have hword : writeRegWord (BitVec.ofNat 6 n) (BitVec.ofNat 8 d) = BitVec.ofNat 16 (n * 256 + d) := by
        apply BitVec.eq_of_toNat_eq
        rw [writeRegWord, toNat_opAddrData]
        simp only [BitVec.toNat_ofNat]
        omega
      rw [fieldOf_of_lt rfl hn, fieldOf_of_lt rfl hd, if_pos ⟨hn, hd⟩, ← hword]
      rfl
    · rw [fieldOf_of_lt rfl hn, fieldOf_of_not_lt rfl hd, if_neg fun h => hd h.2]
      rfl
  · rw [fieldOf_of_not_lt rfl hn, if_neg fun h => hn h.1]
    rfl

theorem assemble_readReg (n : Nat) :
    (AsmCommand.readReg (.number n)).assemble.map encode =
      (if n < 64 then some (.command (BitVec.ofNat 16 (0x4000 + n * 256))) else none) := by
  simp only [AsmCommand.assemble, AsmCommand.expand, AsmCommand.core, AddrOperand.value]
  by_cases hn : n < 64
  · have hword : readRegWord (BitVec.ofNat 6 n) 0x00 = BitVec.ofNat 16 (0x4000 + n * 256) := by
      apply BitVec.eq_of_toNat_eq
      have hzero : (0x00 : Byte).toNat = 0 := rfl
      rw [readRegWord, toNat_opAddrData, hzero]
      simp only [BitVec.toNat_ofNat]
      omega
    rw [fieldOf_of_lt rfl hn, if_pos hn, ← hword]
    rfl
  · rw [fieldOf_of_not_lt rfl hn, if_neg hn]
    rfl

theorem assemble_selfTest (n : Nat) :
    (AsmCommand.selfTest (some n)).assemble.map encode =
      (if n < 16384 then some (.command (BitVec.ofNat 16 (0x8000 + n))) else none) := by
  simp only [AsmCommand.assemble, AsmCommand.expand, AsmCommand.core]
  by_cases hn : n < 16384
  · have hword : selfTestWord (BitVec.ofNat 14 n) = BitVec.ofNat 16 (0x8000 + n) := by
      apply BitVec.eq_of_toNat_eq
      rw [selfTestWord, toNat_opBound]
      simp only [BitVec.toNat_ofNat]
      omega
    rw [fieldOf_of_lt rfl hn, if_pos hn, ← hword]
    rfl
  · rw [fieldOf_of_not_lt rfl hn, if_neg hn]
    rfl

/-- The reserved words as numbers (R67). -/
theorem wellFormed_illegal_ofNat {n : Nat} (hn : n < 0x10000) :
    (Instr.illegal (BitVec.ofNat 16 n)).wellFormed = true ↔ 0xC000 ≤ n := by
  rw [wellFormed_illegal_iff, ← BitVec.toNat_inj, toNat_opField, BitVec.toNat_ofNat, BitVec.toNat_ofNat]
  omega

theorem assemble_illegal (n : Nat) :
    (AsmCommand.illegal n).assemble.map encode =
      (if 0xC000 ≤ n ∧ n < 0x10000 then some (.command (BitVec.ofNat 16 n)) else none) := by
  simp only [AsmCommand.assemble, AsmCommand.expand, AsmCommand.core]
  by_cases hn : n < 0x10000
  · rw [fieldOf_of_lt rfl hn]
    by_cases hr : 0xC000 ≤ n
    · rw [if_pos ⟨hr, hn⟩]
      exact congrArg (Option.map encode) (if_pos ((wellFormed_illegal_ofNat hn).2 hr))
    · rw [if_neg fun h => hr h.1]
      exact congrArg (Option.map encode) (if_neg fun h => hr ((wellFormed_illegal_ofNat hn).1 h))
  · rw [fieldOf_of_not_lt rfl hn, if_neg fun h => hn h.2]
    rfl

/-- Settles O9, command by command: a word is the number its fields make. -/
theorem assemblerChecksOperandRanges : Obligations.AssemblerChecksOperandRanges := fun n d =>
  ⟨assemble_writeReg n d, assemble_readReg n, assemble_selfTest n, assemble_illegal n⟩

/-! ### Frames (R70 to R73) -/

theorem ofFrame_headerByte (t : Txn) : Txn.ofFrame t.headerByte t.secondByte = some t := by
  simp only [Txn.ofFrame, Txn.headerByte, decodeHeader_hdr]
  cases t <;> rfl

/-- Settles O7: by what the header decoder answers for the first byte. -/
theorem frameBytesTellTheTransaction : Obligations.FrameBytesTellTheTransaction := by
  refine ⟨ofFrame_headerByte, fun first second h0 => ?noFrame, fun first second t h => ?mode⟩
  case noFrame =>
    have hd : decodeHeader first = .error .headerBitZeroSet := if_pos h0
    simp only [Txn.ofFrame, hd]
  case mode =>
    obtain ⟨-, hd⟩ | ⟨-, hb, hd⟩ | ⟨-, hb, hd⟩ := decodeHeader_cases first <;> simp only [Txn.ofFrame, hd] at h <;>
      cases h
    · rw [hb, hdr_mode_bit]
      rfl
    · rw [hb, hdr_mode_bit]
      rfl

end Sys2Proof

namespace Sys2Proof.Machine

/-! ### State codes (spec/10_state.md R23, R24) -/

theorem SeqState.ofCode_code (q : SeqState) : SeqState.ofCode q.code = q := by
  have hunused : ∀ k : Fin 15, SeqState.ofCode (SeqState.unused k).code = .unused k := by decide
  cases q
  case unused k => exact hunused k
  all_goals rfl

theorem BteState.ofCode_code (b : BteState) : BteState.ofCode b.code = b := by
  cases b <;> rfl

/-- Settles O10: the named codes by evaluation, and each of the two maps undoes the other. -/
theorem stateCodesReadBack : Obligations.StateCodesReadBack :=
  ⟨rfl, rfl, SeqState.ofCode_code, by decide, BteState.ofCode_code, by decide, rfl, rfl, rfl, rfl⟩

/-! ### The transaction selector (R101) -/

theorem txn_of_not_isTxn {q : SeqState} (h : q.isTxn = false) (c : CmdWord) : txn q c = .regWrite 0x00 0x00 := by
  cases q
  case initWait | idle | stWait | stVerify | resp | unused => rfl
  all_goals cases h

/-- Settles O15: each row by definition. -/
theorem transactionSelectorTable : Obligations.TransactionSelectorTable := fun c =>
  ⟨rfl, rfl, rfl, rfl, rfl, rfl, rfl, rfl, rfl, rfl, rfl, rfl, fun _ h => txn_of_not_isTxn h c⟩

end Sys2Proof.Machine
end

section
/-! No edge and no output port reads SPI_MODE or CLK_HZ (spec/00_scope.md R8, spec/20_memory.md R50). -/

namespace Sys2Proof.Machine

/-- The same RAC built with another SPI_MODE and CLK_HZ. -/
def State.withClock (s : State) (m : SpiMode) (hz : Nat) : State :=
  { s with build := { s.build with spiMode := m, clkHz := hz } }

variable {s t : State} (m : SpiMode) (hz : Nat)

theorem State.sample_withClock (s : State) : (s.withClock m hz).sample = s.sample.withClock m hz := by
  unfold State.sample State.withClock
  cases s.inputs <;> rfl

theorem State.recoverBte_withClock (s : State) : (s.withClock m hz).recoverBte = s.recoverBte.withClock m hz := by
  unfold State.recoverBte
  rw [apply_ite (State.withClock · m hz)]
  rfl

theorem CompletionRule.withClock (h : CompletionRule s t) : CompletionRule (s.withClock m hz) (t.withClock m hz) := by
  cases h with
  | initReset hq => exact .initReset hq
  | host hq => exact .host hq
  | testReset hq => exact .testReset hq
  | flush hq => exact .flush hq
  | loadNext hq hc => exact .loadNext hq hc
  | loadLast hq hc => exact .loadLast hq hc
  | fixed hq hn => exact .fixed hq hn
  | pollReady hq hl => exact .pollReady hq hl
  | pollTimesOut hq hl hh => exact .pollTimesOut hq hl hh
  | pollAgain hq hl hh => exact .pollAgain hq hl hh
  | drainNext hq hc => exact .drainNext hq hc
  | drainLast hq hc => exact .drainLast hq hc
  | disarmTimesOut hq hto => exact .disarmTimesOut hq hto
  | disarmCompares hq hto => exact .disarmCompares hq hto

/-- The edge of the RAC built otherwise goes by the same rule. -/
theorem EdgeRule.withClock (h : EdgeRule s t) : EdgeRule (s.withClock m hz) (t.withClock m hz) := by
  cases h with
  | reset hr => exact .reset hr
  | acceptRegister hr hq hv hop => exact .acceptRegister hr hq hv hop
  | acceptSelfTest hr hq hv hop => exact .acceptSelfTest hr hq hv hop
  | acceptReserved hr hq hv hop =>
    have h := EdgeRule.acceptReserved (s := s.withClock m hz) hr hq hv hop
    rwa [State.recoverBte_withClock] at h
  | headerDone hr ht hb hx => exact .headerDone hr ht hb hx
  | windowOpens hr ht hb hd => exact .windowOpens hr ht hb hd
  | setupEnds hr ht hb hd => exact .setupEnds hr ht hb hd
  | exchangeWaits hr ht hb hx => exact .exchangeWaits hr ht hb hx
  | gapEnds hr ht hb => exact .gapEnds hr ht hb
  | dataDone hr ht hb hx => exact .dataDone hr ht hb hx
  | windowCloses hr ht hb hd => exact .windowCloses hr ht hb hd
  | completes hr ht hb hd t h => exact .completes (s := s.withClock m hz) hr ht hb hd _ (h.withClock m hz)
  | delayCounts hr ht hb hd => exact .delayCounts hr ht hb hd
  | engineRecovers hr ht hb =>
    rw [← State.recoverBte_withClock]
    exact .engineRecovers hr ht hb
  | settleCounts hr hq hd =>
    rw [← State.recoverBte_withClock]
    exact .settleCounts hr hq hd
  | initSettled hr hq hd =>
    rw [← State.recoverBte_withClock]
    exact .initSettled hr hq hd
  | testSettled hr hq hd => exact .testSettled hr hq hd
  | idles hr hq hv =>
    rw [← State.recoverBte_withClock]
    exact .idles hr hq hv
  | compares hr hq =>
    rw [← State.recoverBte_withClock]
    exact .compares hr hq
  | responseTaken hr hq hy =>
    rw [← State.recoverBte_withClock]
    exact .responseTaken hr hq hy
  | responseHeld hr hq hy =>
    rw [← State.recoverBte_withClock]
    exact .responseHeld hr hq hy
  | seqRecovers k hr hq => exact .seqRecovers k hr hq

/-- Settles O42: no rule's guard and no rule's outcome reads the two parameters, and no output port does. -/
theorem spiModeAndClockRateAreNeverRead : Obligations.SpiModeAndClockRateAreNeverRead := by
  intro s m hz as
  obtain ⟨t, ht, he⟩ := exists_step s
  refine ⟨t, ht, ?other, rfl, rfl, rfl, rfl, rfl, rfl, rfl⟩
  case other =>
    have h := he.withClock m hz
    rw [← State.sample_withClock] at h
    exact h.stepSampled

end Sys2Proof.Machine
end

section
/-! A SELF_TEST from its acceptance to its response (spec/41_self_test.md R102 to R118): each step of the test is one lemma
about the transactions it performs, and the two paths are their composition. -/

namespace Sys2Proof.Machine

variable {s t u : State} {r : Byte × Byte} {rs qs : List (Byte × Byte)} {ts us : List Txn} {ps ws : List Pins}

/-! ### Transactions performed one after the other -/

theorem eventsOf_cons (t : Txn) (ts : List Txn) (r : Byte × Byte) (rs : List (Byte × Byte)) :
    eventsOf (t :: ts) (r :: rs) = t.events r ++ eventsOf ts rs := rfl

theorem eventsOf_append (h : ts.length = rs.length) (us : List Txn) (qs : List (Byte × Byte)) :
    eventsOf (ts ++ us) (rs ++ qs) = eventsOf ts rs ++ eventsOf us qs := by
  rw [eventsOf, List.zipWith_append h, List.flatten_append]
  rfl

theorem State.sentAll_append (s : State) (rs qs : List (Byte × Byte)) :
    s.sentAll (rs ++ qs) = (s.sentAll rs).sentAll qs := List.foldl_append

/-- Served with the replies `rs`, the RAC performs the transactions `ts`, one after the other, and is then in `u`. -/
structure State.Performs (s : State) (ts : List Txn) (rs : List (Byte × Byte)) (u : State) : Prop where
  length : ts.length = rs.length
  starts : ∀ n < rs.length, (s.sentAll (rs.take n)).AtStart
  sent : s.sentAll rs = u
  trace : u.trace = (eventsOf ts rs).reverse ++ s.trace

theorem State.Performs.runsThrough (h : s.Performs ts rs u) (hs : ServesAll s.build rs ps) : RunsThrough ps s u :=
  h.sent ▸ runsThrough_sentAll hs h.starts

theorem State.Performs.append (h : s.Performs ts rs t) (h' : t.Performs us qs u) :
    s.Performs (ts ++ us) (rs ++ qs) u where
  length := by rw [List.length_append, List.length_append, h.length, h'.length]
  starts n hn := by
    rw [List.length_append] at hn
    obtain hlt | hge := lt_or_ge n rs.length
    · rw [List.take_append_of_le_length hlt.le]
      exact h.starts n hlt
    · rw [List.take_append, List.take_of_length_le hge, State.sentAll_append, h.sent]
      exact h'.starts (n - rs.length) (by omega)
  sent := by rw [State.sentAll_append, h.sent, h'.sent]
  trace := by rw [h'.trace, h.trace, eventsOf_append h.length, List.reverse_append, List.append_assoc]

theorem State.performs_one (hs : s.AtStart) {t : Txn} (hsent : s.sent r = u)
    (htrace : u.trace = (t.events r).reverse ++ s.trace) : s.Performs [t] [r] u where
  length := rfl
  starts n hn := by
    obtain rfl : n = 0 := by simpa using hn
    exact hs
  sent := hsent
  trace := by rw [htrace, eventsOf_cons]; simp [eventsOf]

/-! ### Step 2, the flush (R104) -/

theorem State.performs_flush (hq : s.seq = .stFlush) (hs : s.AtStart) :
    ∃ es, s.Performs [.regWrite 0x0A 0x80] [r] { s with seq := .stLoad, cnt := 0, trace := es } := by
  have ht : s.txn = .regWrite 0x0A 0x80 := by rw [State.txn, hq]; rfl
  have hdone : s.sent r = { (s.frameSent r).enter .stLoad with cnt := 0 } :=
    (CompletionRule.flush (s := s.frameSent r) hq).complete
  rw [State.frameSent_enter hs ht] at hdone
  exact ⟨_, State.performs_one hs hdone rfl⟩

/-! ### Step 3, the dummy writes (R105) -/

theorem State.performs_load (hq : s.seq = .stLoad) (hs : s.AtStart) (hc : s.cnt = 0) (hlen : rs.length = 25) :
    ∃ es, s.Performs (List.replicate 25 (.regWrite 0x09 0x00)) rs { s with seq := .stMem, cnt := 24, trace := es } := by
  obtain rfl | ⟨init, r, rfl⟩ := rs.eq_nil_or_concat'
  · nomatch hlen
  have hend := State.sentAll_of_stLoad_last (r := r) hq hs hc (rs := init) (by simpa using hlen)
  refine ⟨_, by rw [hlen, List.length_replicate], fun n hn => ?_, hend, by rw [← hlen]; rfl⟩
  rw [State.sentAll_of_stLoad hq hs hc (by rw [List.length_take]; omega)]
  exact ⟨hs.isTxn, hs.bte, hs.dly⟩

/-! ### Steps 4 to 7, the fixed writes (R106 to R109) -/

theorem State.performs_fixed {p q : SeqState} (hn : FixedNext p q) (hq : s.seq = p) (hs : s.AtStart) :
    ∃ es, s.Performs [Machine.txn p 0] [r] { s with seq := q, trace := es } := by
  have ht : s.txn = Machine.txn p 0 := by
    rw [State.txn, hq]
    cases hn <;> rfl
  have hw : (Machine.txn p 0).rw = false := by cases hn <;> rfl
  have hdone : s.sent r = (s.frameSent r).enter q := (CompletionRule.fixed (s := s.frameSent r) hq hn).complete
  rw [State.frameSent_enter hs ht, hw] at hdone
  exact ⟨_, State.performs_one hs hdone rfl⟩

/-- From the flush to the first poll (R104 to R109). -/
theorem State.performs_setup (hq : s.seq = .stFlush) (hs : s.AtStart) (hlen : rs.length = 30) :
    ∃ es, s.Performs setupTxns rs { s with seq := .stPoll, cnt := 24, trace := es } := by
  obtain ⟨r, rs, rfl⟩ := List.exists_cons_of_length_eq_add_one hlen
  have hload : (rs.take 25).length = 25 := by rw [List.length_take]; simp at hlen; omega
  have hfixed : (rs.drop 25).length = 4 := by rw [List.length_drop]; simp at hlen; omega
  obtain ⟨rMem, rArm, rSeed, rCalc, hfour⟩ := List.length_eq_four.1 hfixed
  obtain ⟨_, h1⟩ := State.performs_flush (r := r) hq hs
  obtain ⟨_, h2⟩ := State.performs_load (s := { s with seq := .stLoad, cnt := 0, trace := _ }) rfl
    ⟨rfl, hs.bte, hs.dly⟩ rfl hload
  obtain ⟨_, h3⟩ := State.performs_fixed (r := rMem) (s := { s with seq := .stMem, cnt := 24, trace := _ }) .afterMem rfl
    ⟨rfl, hs.bte, hs.dly⟩
  obtain ⟨_, h4⟩ := State.performs_fixed (r := rArm) (s := { s with seq := .stArm, cnt := 24, trace := _ }) .afterArm rfl
    ⟨rfl, hs.bte, hs.dly⟩
  obtain ⟨_, h5⟩ := State.performs_fixed (r := rSeed) (s := { s with seq := .stSeed, cnt := 24, trace := _ }) .afterSeed rfl
    ⟨rfl, hs.bte, hs.dly⟩
  obtain ⟨_, h6⟩ := State.performs_fixed (r := rCalc) (s := { s with seq := .stCalc, cnt := 24, trace := _ }) .afterCalc rfl
    ⟨rfl, hs.bte, hs.dly⟩
  have hall := h1.append (h2.append (h3.append (h4.append (h5.append h6))))
  rw [← List.take_append_drop 25 rs, hfour]
  exact ⟨_, hall⟩

/-! ### Step 8, the polls (R110 to R112) -/

/-- The poll count after `n` polls from 0 (R112). -/
theorem State.pollsNext_of_count {n : Nat} (h : s.polls = sat14 n) : s.pollsNext = sat14 (n + 1) := by
  rw [State.pollsNext, h, sat14, sat14, sat14, BitVec.toNat_ofNat]
  congr 1
  omega

/-- A count below the bound does not hit it. -/
theorem State.boundHit_of_lt {n : Nat} (h : s.polls = sat14 n) (hb : s.bound = 0 ∨ n + 1 < s.bound.toNat) :
    s.boundHit = false := by
  rw [State.boundHit_eq_false, State.pollsNext_of_count h]
  refine hb.imp_right fun hlt heq => ?_
  have hbound : s.bound.toNat < 16384 := s.bound.isLt
  have hn : (sat14 (n + 1)).toNat = n + 1 := by
    rw [sat14, BitVec.toNat_ofNat]
    omega
  rw [heq] at hn
  omega

/-- Polls below 64 that stay below the bound, counted. -/
theorem State.sentAll_of_stPoll_counted (hq : s.seq = .stPoll) (hs : s.AtStart) (hp : s.polls = 0)
    (hr : ∀ r ∈ rs, r.2.toNat < 64) (hb : s.bound = 0 ∨ rs.length < s.bound.toNat) :
    ∃ x, s.sentAll rs = { s with
      polls := sat14 rs.length
      rdata := x
      trace := traceAfter (.regRead 0x0A) rs s.trace } := by
  induction rs using List.reverseRecOn with
  | nil =>
    have hpolls : sat14 ([] : List (Byte × Byte)).length = s.polls := hp.symm
    rw [hpolls]
    exact ⟨_, rfl⟩
  | append_singleton rs r ih =>
    rw [List.forall_mem_append, List.forall_mem_singleton] at hr
    obtain ⟨hrs, hr⟩ := hr
    rw [List.length_append, List.length_singleton] at hb ⊢
    obtain ⟨x, hloop⟩ := ih hrs (hb.imp_right Nat.lt_of_succ_lt)
    have hcount : (s.sentAll rs).polls = sat14 rs.length := by rw [hloop]
    have hagain := State.sent_of_stPoll_again (s := s.sentAll rs) (r := r) (by rw [hloop]; exact hq)
      (by rw [hloop]; exact ⟨hs.isTxn, hs.bte, hs.dly⟩) hr (State.boundHit_of_lt hcount (by rw [hloop]; exact hb))
    rw [State.sentAll_concat, hagain, State.pollsNext_of_count hcount, hloop, traceAfter_concat]
    exact ⟨_, rfl⟩

theorem State.performs_polls (hq : s.seq = .stPoll) (hs : s.AtStart) (hp : s.polls = 0) (hr : ∀ r ∈ rs, r.2.toNat < 64)
    (hb : s.bound = 0 ∨ rs.length < s.bound.toNat) :
    ∃ x es, s.Performs (List.replicate rs.length (.regRead 0x0A)) rs
      { s with polls := sat14 rs.length, rdata := x, trace := es } := by
  obtain ⟨x, hend⟩ := State.sentAll_of_stPoll_counted hq hs hp hr hb
  refine ⟨x, _, List.length_replicate, fun n hn => ?_, hend, rfl⟩
  have htake : (rs.take n).length ≤ rs.length := List.length_take_le' ..
  obtain ⟨y, hloop⟩ := State.sentAll_of_stPoll_counted (rs := rs.take n) hq hs hp
    (fun r hmem => hr r (List.mem_of_mem_take hmem)) (hb.imp_right htake.trans_lt)
  rw [hloop]
  exact ⟨hs.isTxn, hs.bte, hs.dly⟩

/-- A level of 64 or more ends the polls, whatever the bound. -/
theorem State.performs_lastPoll (hq : s.seq = .stPoll) (hs : s.AtStart) (hl : 64 ≤ r.2.toNat) :
    ∃ es, s.Performs [.regRead 0x0A] [r]
      { s with seq := .stDrain, polls := s.pollsNext, cnt := 0, rdata := r.2, trace := es } := by
  have ht := State.txn_of_stPoll hq
  have hlevel : levelReached (s.frameSent r).rdata = true := by
    rw [State.frameSent_rdata ht]
    exact levelReached_eq_true.2 hl
  have hdone : s.sent r = { (s.frameSent r).enter .stDrain with polls := s.pollsNext, cnt := 0 } :=
    (CompletionRule.pollReady (s := s.frameSent r) hq hlevel).complete
  rw [State.frameSent_enter hs ht] at hdone
  exact ⟨_, State.performs_one hs hdone rfl⟩

/-- A poll below 64 at which the count reaches the bound sets TO. -/
theorem State.performs_timeoutPoll (hq : s.seq = .stPoll) (hs : s.AtStart) (hl : r.2.toNat < 64) (hh : s.boundHit = true) :
    ∃ es, s.Performs [.regRead 0x0A] [r]
      { s with seq := .stDisarm, polls := s.pollsNext, toFlag := true, rdata := r.2, trace := es } := by
  have ht := State.txn_of_stPoll hq
  have hlevel : levelReached (s.frameSent r).rdata = false := by
    rw [State.frameSent_rdata ht]
    exact levelReached_eq_false.2 hl
  have hdone : s.sent r = { (s.frameSent r).enter .stDisarm with polls := s.pollsNext, toFlag := true } :=
    (CompletionRule.pollTimesOut (s := s.frameSent r) hq hlevel hh).complete
  rw [State.frameSent_enter hs ht] at hdone
  exact ⟨_, State.performs_one hs hdone rfl⟩

/-! ### Step 9, the drain (R113) -/

theorem State.performs_drain (hq : s.seq = .stDrain) (hs : s.AtStart) (hc : s.cnt = 0) (hlen : rs.length = 64) :
    ∃ x w es, s.Performs (List.replicate 64 (.regRead 0x09)) rs
        { s with seq := .stDisarm, cnt := 63, rdata := x, result := w, trace := es } ∧
      w.toList = rs.map Prod.snd := by
  obtain rfl | ⟨init, r, rfl⟩ := rs.eq_nil_or_concat'
  · nomatch hlen
  obtain ⟨w, hend, hw⟩ := State.sentAll_of_stDrain_last (r := r) hq hs hc (rs := init) (by simpa using hlen)
  refine ⟨_, w, _, ⟨by rw [hlen, List.length_replicate], fun n hn => ?_, hend, by rw [← hlen]; rfl⟩, hw⟩
  obtain ⟨y, v, hloop, -⟩ := State.sentAll_of_stDrain (rs := (init ++ [r]).take n) hq hs hc (by rw [List.length_take]; omega)
  rw [hloop]
  exact ⟨hs.isTxn, hs.bte, hs.dly⟩

/-! ### Step 10, the disarm (R114) -/

theorem State.txn_of_stDisarm (hq : s.seq = .stDisarm) : s.txn = .regWrite 0x36 0x00 := by
  rw [State.txn, hq]
  rfl

theorem State.performs_disarm (hq : s.seq = .stDisarm) (hs : s.AtStart) (hto : s.toFlag = false) :
    ∃ es, s.Performs [.regWrite 0x36 0x00] [r] { s with seq := .stVerify, bte := .post, dly := 0, trace := es } := by
  have ht := State.txn_of_stDisarm hq
  have hdone : s.sent r = { s.frameSent r with seq := .stVerify } :=
    (CompletionRule.disarmCompares (s := s.frameSent r) hq hto).complete
  refine ⟨_, State.performs_one hs (hdone.trans ?_) (State.frameSent_trace ht)⟩
  have hrdata : (s.frameSent r).rdata = s.rdata := State.frameSent_rdata ht
  rw [← hrdata]
  rfl

theorem State.performs_disarmTimeout (hq : s.seq = .stDisarm) (hs : s.AtStart) (hto : s.toFlag = true) :
    ∃ es, s.Performs [.regWrite 0x36 0x00] [r]
      { s with
        seq := .resp
        rspStatus := .timeout
        rspData := 0x00
        bte := .post
        dly := 0
        trace := es } := by
  have ht := State.txn_of_stDisarm hq
  have hdone : s.sent r = (s.frameSent r).respond .timeout 0x00 :=
    (CompletionRule.disarmTimesOut (s := s.frameSent r) hq hto).complete
  refine ⟨_, State.performs_one hs (hdone.trans ?_) (State.frameSent_trace ht)⟩
  have hrdata : (s.frameSent r).rdata = s.rdata := State.frameSent_rdata ht
  rw [← hrdata]
  rfl

/-! ### From acceptance to the flush (R99, R102, R103) -/

/-- The SoftReset write and its settle delay. -/
theorem runsThrough_testReset (hq : s.seq = .stRst) (hs : s.AtStart) (hp : ServesTxn s.build r ps)
    (hw : Waits s.build.tSettle ws) :
    RunsThrough (ps ++ ws) s
      { s with seq := .stFlush, trace := ((Txn.regWrite 0x01 0x0F).events r).reverse ++ s.trace } := by
  have ht : s.txn = .regWrite 0x01 0x0F := by rw [State.txn, hq]; rfl
  have hwrite := runsThrough_transaction hs.isTxn hs.bte hs.dly hp
  rw [(CompletionRule.testReset (s := s.frameSent r) hq).complete] at hwrite
  have hsettle := runsThrough_settle (s := (s.frameSent r).settle .stWait) (.inr rfl) nofun rfl hw
    (State.edge_of_stWait rfl rfl)
  have hflush : (s.frameSent r).enter .stFlush =
      { s with seq := .stFlush, trace := ((Txn.regWrite 0x01 0x0F).events r).reverse ++ s.trace } :=
    State.frameSent_enter hs ht .stFlush
  rw [← hflush]
  exact hwrite.append hsettle

/-- The RAC at the first edge of a SELF_TEST with bound `b` (R99). -/
def State.selfTestStart (s : State) (b : Bound) : State :=
  { s.accept (selfTestWord b) with polls := 0, toFlag := false }.enter .stRst

/-- The RAC at the start of the flush, `r` received with the SoftReset write. -/
def State.selfTestFlush (s : State) (b : Bound) (r : Byte × Byte) : State :=
  { s.selfTestStart b with
    seq := .stFlush
    trace := ((Txn.regWrite 0x01 0x0F).events r).reverse ++ s.trace }

theorem runsThrough_selfTestFlush (b : Bound) (hp : ServesTxn s.build r ps) (hw : Waits s.build.tSettle ws) :
    RunsThrough (ps ++ ws) (s.selfTestStart b) (s.selfTestFlush b r) :=
  runsThrough_testReset (s := s.selfTestStart b) rfl ⟨rfl, rfl, rfl⟩ hp hw

theorem State.selfTestFlush_atStart (s : State) (b : Bound) (r : Byte × Byte) : (s.selfTestFlush b r).AtStart :=
  ⟨rfl, rfl, rfl⟩

theorem State.selfTestFlush_bound (s : State) (b : Bound) (r : Byte × Byte) : (s.selfTestFlush b r).bound = b :=
  boundField_append 0b10#2 b

/-! ### The two paths from the flush (R118) -/

/-- Transactions 2 to `97 + k` of a self-test that compares: `k` polls below the level and one at it. -/
def compareTxns (k : Nat) : List Txn :=
  setupTxns ++ (List.replicate k (Txn.regRead 0x0A) ++ ([Txn.regRead 0x0A] ++
    (List.replicate 64 (Txn.regRead 0x09) ++ [Txn.regWrite 0x36 0x00])))

/-- Transactions 2 to `32 + k` of a self-test that times out at poll `k`. -/
def timeoutTxns (k : Nat) : List Txn :=
  setupTxns ++ (List.replicate k (Txn.regRead 0x0A) ++ [Txn.regWrite 0x36 0x00])

theorem comparePathTxns_succ (k : Nat) : comparePathTxns (k + 1) = Txn.regWrite 0x01 0x0F :: compareTxns k := by
  simp only [comparePathTxns, compareTxns, List.flatten_cons, List.flatten_nil, List.append_nil, List.replicate_succ',
    List.append_assoc]
  rfl

theorem timeoutPathTxns_eq (k : Nat) : timeoutPathTxns k = Txn.regWrite 0x01 0x0F :: timeoutTxns k := by
  simp only [timeoutPathTxns, timeoutTxns, List.flatten_cons, List.flatten_nil, List.append_nil]
  rfl

/-- In `u` the comparison is due: `n` polls have been made since `s`, and RESULT holds `bytes`. -/
structure State.Drained (s u : State) (n : Nat) (bytes : List Byte) : Prop where
  seq : u.seq = .stVerify
  bte : u.bte = .post
  cnt : u.cnt = 63
  polls : u.polls = sat14 n
  toFlag : u.toFlag = false
  result : u.result.toList = bytes
  cmd : u.cmd = s.cmd
  build : u.build = s.build

theorem State.performs_comparePath {setup polls drain : List (Byte × Byte)} {last fin : Byte × Byte} (hq : s.seq = .stFlush)
    (hs : s.AtStart) (hp : s.polls = 0) (hto : s.toFlag = false) (hsetup : setup.length = 30)
    (hpolls : ∀ r ∈ polls, r.2.toNat < 64) (hlast : 64 ≤ last.2.toNat) (hb : s.bound = 0 ∨ polls.length < s.bound.toNat)
    (hdrain : drain.length = 64) :
    ∃ u, s.Performs (compareTxns polls.length) (setup ++ (polls ++ ([last] ++ (drain ++ [fin])))) u ∧
      s.Drained u (polls.length + 1) (drain.map Prod.snd) := by
  obtain ⟨_, h1⟩ := State.performs_setup hq hs hsetup
  obtain ⟨_, _, h2⟩ := State.performs_polls (s := { s with seq := .stPoll, cnt := 24, trace := _ }) rfl
    ⟨rfl, hs.bte, hs.dly⟩ hp hpolls hb
  obtain ⟨_, h3⟩ := State.performs_lastPoll
    (s := { s with seq := .stPoll, cnt := 24, polls := sat14 polls.length, rdata := _, trace := _ }) rfl
    ⟨rfl, hs.bte, hs.dly⟩ hlast
  rw [State.pollsNext_of_count (n := polls.length) rfl] at h3
  obtain ⟨_, w, _, h4, hw⟩ := State.performs_drain
    (s := { s with seq := .stDrain, cnt := 0, polls := sat14 (polls.length + 1), rdata := last.2, trace := _ }) rfl
    ⟨rfl, hs.bte, hs.dly⟩ rfl hdrain
  obtain ⟨_, h5⟩ := State.performs_disarm (r := fin)
    (s := { s with
      seq := .stDisarm
      cnt := 63
      polls := sat14 (polls.length + 1)
      rdata := _
      result := w
      trace := _ }) rfl ⟨rfl, hs.bte, hs.dly⟩ hto
  have hall := h1.append (h2.append (h3.append (h4.append h5)))
  exact ⟨_, hall, rfl, rfl, rfl, rfl, hto, hw, rfl, rfl⟩

/-- In `u` the self-test of `s` has timed out and its response is offered. -/
structure State.TimedOut (s u : State) : Prop where
  seq : u.seq = .resp
  rspStatus : u.rspStatus = .timeout
  rspData : u.rspData = 0x00
  cnt : u.cnt = 24
  polls : u.polls = s.bound
  toFlag : u.toFlag = true
  result : u.result = s.result
  cmd : u.cmd = s.cmd
  build : u.build = s.build

theorem State.performs_timeoutPath {setup polls : List (Byte × Byte)} {fin : Byte × Byte} (hq : s.seq = .stFlush)
    (hs : s.AtStart) (hp : s.polls = 0) (hsetup : setup.length = 30) (hpolls : ∀ r ∈ polls, r.2.toNat < 64)
    (hb : s.bound ≠ 0) (hlen : polls.length = s.bound.toNat) :
    ∃ u, s.Performs (timeoutTxns polls.length) (setup ++ (polls ++ [fin])) u ∧ s.TimedOut u := by
  obtain rfl | ⟨init, last, rfl⟩ := polls.eq_nil_or_concat'
  · exact absurd (BitVec.eq_of_toNat_eq hlen.symm) hb
  rw [List.length_append, List.length_singleton] at hlen
  rw [List.forall_mem_append, List.forall_mem_singleton] at hpolls
  obtain ⟨hinit, hlast⟩ := hpolls
  have hcount : sat14 (init.length + 1) = s.bound := by
    have hbound : s.bound.toNat < 16384 := s.bound.isLt
    apply BitVec.eq_of_toNat_eq
    rw [sat14, BitVec.toNat_ofNat]
    omega
  obtain ⟨_, h1⟩ := State.performs_setup hq hs hsetup
  obtain ⟨_, _, h2⟩ := State.performs_polls (s := { s with seq := .stPoll, cnt := 24, trace := _ }) rfl
    ⟨rfl, hs.bte, hs.dly⟩ hp hinit (.inr (Nat.lt_of_succ_le hlen.le))
  have hnext (x : Byte) (es : List BusEvent) :
      State.pollsNext { s with seq := .stPoll, cnt := 24, polls := sat14 init.length, rdata := x, trace := es } = s.bound :=
    (State.pollsNext_of_count rfl).trans hcount
  obtain ⟨_, h3⟩ := State.performs_timeoutPoll
    (s := { s with seq := .stPoll, cnt := 24, polls := sat14 init.length, rdata := _, trace := _ }) rfl
    ⟨rfl, hs.bte, hs.dly⟩ hlast (State.boundHit_eq_true.2 ⟨hb, hnext _ _⟩)
  rw [hnext] at h3
  obtain ⟨_, h4⟩ := State.performs_disarmTimeout (r := fin)
    (s := { s with seq := .stDisarm, cnt := 24, polls := s.bound, toFlag := true, rdata := last.2, trace := _ }) rfl
    ⟨rfl, hs.bte, hs.dly⟩ rfl
  have hall := h1.append (h2.append (h3.append h4))
  simp only [timeoutTxns, List.length_append, List.length_singleton, List.replicate_succ', List.append_assoc]
  exact ⟨_, hall, rfl, rfl, rfl, rfl, rfl, rfl, rfl, rfl, rfl⟩

/-! ### The comparison (R116) -/

/-- The comparison takes one edge. -/
theorem runsThrough_verify {v : Pins} (hq : s.seq = .stVerify) (hb : s.bte ≠ .unused) (hv : v.rst = false) :
    RunsThrough [v] s s.verify := by
  refine .single fun rest => ?_
  have h := (EdgeRule.compares (s := s.withPorts v rest) hv hq).stepSampled
  rwa [State.recoverBte_of_used _ (show (s.withPorts v rest).verify.bte ≠ .unused from hb)] at h

/-- RESULT is GOLDEN exactly where the bytes drained are. -/
theorem result_eq_golden_iff {w g : Vector Byte 64} {bytes : List Byte} (hw : w.toList = bytes) :
    w = g ↔ ∀ i : Fin 64, bytes[i]? = some g[i] := by
  subst hw
  constructor
  · rintro rfl i
    simp
  · exact fun h => Vector.ext fun i hi => by simpa [hi] using h ⟨i, hi⟩

theorem State.verify_rspStatus_of_eq (h : s.result = s.build.golden) : s.verify.rspStatus = .ok := by
  simp [State.verify, State.passes_eq_true.2 h]

theorem State.verify_rspStatus_of_ne (h : s.result ≠ s.build.golden) : s.verify.rspStatus = .mismatch := by
  have hp : s.passes = false := by rwa [Bool.eq_false_iff, Ne, State.passes_eq_true]
  simp [State.verify, hp]

/-! ### The whole test -/

/-- The trace of a self-test is that of the SoftReset write followed by the rest. -/
theorem selfTest_trace {b : Bound} (h : (s.selfTestFlush b r).Performs ts rs u) :
    u.trace = (eventsOf (.regWrite 0x01 0x0F :: ts) (r :: rs)).reverse ++ s.trace := by
  rw [h.trace, eventsOf_cons, List.reverse_append, List.append_assoc]
  rfl

/-- Settles O52: acceptance and the SoftReset write, the 95 + k transactions of the compare path, the comparison. -/
theorem selfTestComparesTheDrainedBytes : Obligations.SelfTestComparesTheDrainedBytes := by
  intro s b r0 last fin setup polls drain p0 ws p1 rest v hp0 hws hsetup hpolls hlast hb hdrain hp1 hv hin
  simp only [List.flatten_cons, List.flatten_nil, List.append_nil] at hp1 hin ⊢
  have hbound : (s.selfTestFlush b r0).bound = 0 ∨ polls.length < (s.selfTestFlush b r0).bound.toNat := by
    rw [State.selfTestFlush_bound]
    exact hb.imp_right Nat.lt_of_succ_le
  obtain ⟨u, hperf, hu⟩ := State.performs_comparePath (s := s.selfTestFlush b r0) (fin := fin) rfl
    (s.selfTestFlush_atStart b r0) rfl rfl hsetup hpolls hlast hbound hdrain
  have hverify : RunsThrough [v] u u.verify := runsThrough_verify hu.seq (by rw [hu.bte]; nofun) hv
  have hin' : (s.selfTestStart b).inputs = p0 ++ ws ++ (p1 ++ [v]) ++ rest := hin.trans (by simp)
  have hrun := ((runsThrough_selfTestFlush b hp0 hws).append ((hperf.runsThrough hp1).append hverify)).runs hin'
  have hsteps : (p0 ++ ws ++ (p1 ++ [v])).length = p0.length + s.build.tSettle + p1.length + 1 := by
    simp [hws.1, Nat.add_assoc]
  rw [hsteps] at hrun
  have hgolden : u.result = u.build.golden ↔ ∀ i : Fin 64, (drain.map Prod.snd)[i]? = some s.build.golden[i] := by
    rw [hu.build]
    exact result_eq_golden_iff hu.result
  refine ⟨_, _, rfl, rfl, hrun, rfl, rfl, fun h => ?ok, fun ⟨i, hne⟩ => ?mismatch, hu.result, ?trace, hu.toFlag, hu.polls,
    hu.cnt, hu.cmd, hu.build, rfl⟩
  case ok => exact State.verify_rspStatus_of_eq (hgolden.2 h)
  case mismatch => exact State.verify_rspStatus_of_ne fun heq => hne (hgolden.1 heq i)
  case trace =>
    have htrace := selfTest_trace hperf
    rwa [← comparePathTxns_succ] at htrace

/-- Settles O53: acceptance and the SoftReset write, then the 31 + b transactions of the timeout path. -/
theorem selfTestTimesOutAtItsBound : Obligations.SelfTestTimesOutAtItsBound := by
  intro s b r0 fin setup polls p0 ws p1 rest hp0 hws hsetup hpolls hb hlen hp1 hin
  simp only [List.flatten_cons, List.flatten_nil, List.append_nil] at hp1 hin ⊢
  have hbound : (s.selfTestFlush b r0).bound = b := s.selfTestFlush_bound b r0
  obtain ⟨u, hperf, hu⟩ := State.performs_timeoutPath (s := s.selfTestFlush b r0) (fin := fin) rfl
    (s.selfTestFlush_atStart b r0) rfl hsetup hpolls (by rwa [hbound]) (by rwa [hbound])
  have hin' : (s.selfTestStart b).inputs = p0 ++ ws ++ p1 ++ rest := hin.trans (by simp)
  have hrun := ((runsThrough_selfTestFlush b hp0 hws).append (hperf.runsThrough hp1)).runs hin'
  have hsteps : (p0 ++ ws ++ p1).length = p0.length + s.build.tSettle + p1.length := by
    simp [hws.1, Nat.add_assoc]
  rw [hsteps] at hrun
  refine ⟨_, _, rfl, rfl, hrun, hu.seq, hu.rspStatus, hu.rspData, hu.result, ?trace, hu.toFlag, hu.polls.trans hbound,
    hu.cnt, hu.cmd, hu.build, rfl⟩
  case trace =>
    have htrace := selfTest_trace hperf
    rwa [← timeoutPathTxns_eq, hlen] at htrace

end Sys2Proof.Machine
end
